-- ==== Sys2Proof/Word.lean ====
section
/-! DEFINITION. The word types: what the spec treats as bits (R8, R11, R20, R33, R80). -/

namespace Sys2Proof

/-- A cache register or one transferred byte (R11: registers are unsigned 8-bit). -/
abbrev Byte := BitVec 8

/-- A command word (R80: every command is one 32-bit word). -/
abbrev Word := BitVec 32

/-- A chip register address (R10, R34: 8 bits). -/
abbrev RegAddr := BitVec 8

/-- The chip's I2C address (R8: 7 bits). -/
abbrev ChipAddr := BitVec 7

/-- A bit offset within a port (R18: 0..7). -/
abbrev BitOffset := Fin 8

end Sys2Proof
end

