-- ==== Sys2Proof/Syntax.lean ====
section
/-! DEFINITION. The decoded commands of R89 and their operands (R13). -/

namespace Sys2Proof

/-- R13: a pin operand is an integer, or any value that is not one. -/
inductive Pin where
  | int (k : Int)
  | nonInt
  deriving DecidableEq, Repr

/-- R13: a direction operand; `bad` is any value not in {INPUT, OUTPUT}. -/
inductive Direction where
  | input
  | output
  | bad
  deriving DecidableEq, Repr

/-- R13: a write value operand; `bad` is any value outside {0, 1, true, false}. -/
inductive WriteValue where
  | num0
  | num1
  | boolFalse
  | boolTrue
  | bad
  deriving DecidableEq, Repr

/-- The commands: one constructor per row of spec/opcode_table.json (R82). -/
inductive Instr where
  /-- R120 -/
  | pinMode (pin : Pin) (d : Direction)
  /-- R130 -/
  | digitalWrite (pin : Pin) (val : WriteValue)
  /-- R140 -/
  | digitalRead (pin : Pin)
  /-- R150 -/
  | reset
  deriving DecidableEq, Repr

/-- The four operations by name (R82), for the opcode map of R87. -/
inductive Operation where
  | pinMode
  | digitalWrite
  | digitalRead
  | reset
  deriving DecidableEq, Repr

/-- The operation of a command. -/
def Instr.operation : Instr → Operation
  | .pinMode _ _ => .pinMode
  | .digitalWrite _ _ => .digitalWrite
  | .digitalRead _ => .digitalRead
  | .reset => .reset

end Sys2Proof
end

