-- ==== Sys2Proof/WellFormed.lean ====
section
/-! DEFINITION. Which commands have a word: R83 carries an integer pin in 16 signed bits; every other operand is
encodable. A command with any other integer pin still has its meaning (R100 gives PIN_RANGE); it only has no word. -/

namespace Sys2Proof

/-- R83: the integers -32768..32767 are encodable. -/
def Pin.wellFormed : Pin → Bool
  | .int k => decide (-32768 ≤ k ∧ k ≤ 32767)
  | .nonInt => true

/-- A command is well-formed when its pin operand, if it has one, is encodable. -/
def Instr.wellFormed : Instr → Bool
  | .pinMode pin _ => pin.wellFormed
  | .digitalWrite pin _ => pin.wellFormed
  | .digitalRead pin => pin.wellFormed
  | .reset => true

end Sys2Proof
end

