-- ==== Sys2Proof/Decode.lean ====
section
/-! DEFINITION. The 32-bit command format C (30_encoding.md R80–R92): the total decoder of R89, which rejects by name,
then the encoder written from the same tables, and the opcode map of R87 as data. -/

namespace Sys2Proof

/-- Why a word spells no operation. R89 has the one answer Refused; the names are labels of the model (log entry 11).
No effect depends on them. -/
inductive Reject where
  /-- a bit of Z1 (27:24) or Z2 (21:20) is set -/
  | reservedField
  /-- PK = 1x -/
  | reservedPinKind
  /-- PK = 01 with PIN nonzero -/
  | nonIntPinBits
  /-- digitalRead with ARG nonzero -/
  | argBits
  /-- OP = 0100 and not the word 0x40000000 -/
  | resetBits
  /-- OP = 0000 or 0101..1111 -/
  | reservedOp
  deriving DecidableEq, Repr

/-- R81: `OP`, bits 31:28. -/
def opField (w : Word) : BitVec 4 := w.extractLsb' 28 4
/-- R81: `Z1`, bits 27:24. -/
def z1Field (w : Word) : BitVec 4 := w.extractLsb' 24 4
/-- R81: `PK`, bits 23:22. -/
def pkField (w : Word) : BitVec 2 := w.extractLsb' 22 2
/-- R81: `Z2`, bits 21:20. -/
def z2Field (w : Word) : BitVec 2 := w.extractLsb' 20 2
/-- R81: `ARG`, bits 19:16. -/
def argField (w : Word) : BitVec 4 := w.extractLsb' 16 4
/-- R81: `PIN`, bits 15:0. -/
def pinField (w : Word) : BitVec 16 := w.extractLsb' 0 16

/-- R84: the direction an `ARG` code spells. -/
def dirOf (arg : BitVec 4) : Direction :=
  if arg = 0#4 then .output else if arg = 1#4 then .input else .bad

/-- R85: the write value an `ARG` code spells. -/
def valOf (arg : BitVec 4) : WriteValue :=
  if arg = 0#4 then .num0
  else if arg = 1#4 then .num1
  else if arg = 2#4 then .boolFalse
  else if arg = 3#4 then .boolTrue
  else .bad

/-- R83, and the third to fifth lines of R89: the pin operand. -/
def decodePin (pk : BitVec 2) (pin : BitVec 16) : Except Reject Pin :=
  if pk = 0#2 then .ok (.int pin.toInt)
  else if pk = 1#2 then (if pin = 0#16 then .ok .nonInt else .error .nonIntPinBits)
  else .error .reservedPinKind

/-- R89's case on `OP`, once the pin operand is read. -/
def decodeOp (w : Word) (pin : Pin) : Except Reject Instr :=
  if opField w = 1#4 then .ok (.pinMode pin (dirOf (argField w)))
  else if opField w = 2#4 then .ok (.digitalWrite pin (valOf (argField w)))
  else if opField w = 3#4 then (if argField w = 0#4 then .ok (.digitalRead pin) else .error .argBits)
  else if opField w = 4#4 then (if w = 0x40000000#32 then .ok .reset else .error .resetBits)
  else .error .reservedOp

/-- R89: the decode function, total on all 2^32 words. -/
def decode (w : Word) : Except Reject Instr :=
  if z1Field w = 0#4 ∧ z2Field w = 0#2 then
    match decodePin (pkField w) (pinField w) with
    | .ok pin => decodeOp w pin
    | .error e => .error e
  else .error .reservedField

/-! ### The encoder (R81–R86, R93) -/

/-- R81: a word from the fields that may be nonzero; Z1 and Z2 are zero. -/
def makeWord (op : BitVec 4) (pk : BitVec 2) (arg : BitVec 4) (pin : BitVec 16) : Word :=
  op ++ 0#4 ++ pk ++ 0#2 ++ arg ++ pin

/-- R83: the pin kind. -/
def Pin.kindBits : Pin → BitVec 2
  | .int _ => 0#2
  | .nonInt => 1#2

/-- R83: the `PIN` field. -/
def Pin.bits : Pin → BitVec 16
  | .int k => BitVec.ofInt 16 k
  | .nonInt => 0#16

/-- R84; a bad direction takes the code 2 (R93: `BADDIR` is `BADDIR2`; log entry 11). -/
def Direction.code : Direction → BitVec 4
  | .output => 0#4
  | .input => 1#4
  | .bad => 2#4

/-- R85; a bad value takes the code 4 (R93: `BADVAL` is `BADVAL4`; log entry 11). -/
def WriteValue.code : WriteValue → BitVec 4
  | .num0 => 0#4
  | .num1 => 1#4
  | .boolFalse => 2#4
  | .boolTrue => 3#4
  | .bad => 4#4

/-- R82: the operation selector. -/
def Operation.code : Operation → BitVec 4
  | .pinMode => 1#4
  | .digitalWrite => 2#4
  | .digitalRead => 3#4
  | .reset => 4#4

/-- The word of a command (for a well-formed one, a word that decodes to it). -/
def encode : Instr → Word
  | .pinMode pin d => makeWord Operation.pinMode.code pin.kindBits d.code pin.bits
  | .digitalWrite pin val => makeWord Operation.digitalWrite.code pin.kindBits val.code pin.bits
  | .digitalRead pin => makeWord Operation.digitalRead.code pin.kindBits 0#4 pin.bits
  | .reset => makeWord Operation.reset.code 0#2 0#4 0#16

/-! ### The opcode map (R87) -/

/-- One row of R87: the fixed bits of an operation, and whether the row has the extra checks on PK and PIN. -/
structure OpcodeRow where
  operation : Operation
  pattern : Word
  mask : Word
  pinChecks : Bool
  deriving DecidableEq, Repr

/-- R87: the opcode map, row for row. -/
def opcodeMap : List OpcodeRow :=
  [⟨.pinMode, 0x10000000#32, 0xFF300000#32, true⟩,
   ⟨.digitalWrite, 0x20000000#32, 0xFF300000#32, true⟩,
   ⟨.digitalRead, 0x30000000#32, 0xFF3F0000#32, true⟩,
   ⟨.reset, 0x40000000#32, 0xFFFFFFFF#32, false⟩]

/-- R87's extra checks: `PK ∈ {00, 01}`, and `PK = 01` only with `PIN = 0`. -/
def pinChecksPass (w : Word) : Bool :=
  decide (pkField w = 0#2 ∨ (pkField w = 1#2 ∧ pinField w = 0#16))

/-- R87: a word matches a row. -/
def OpcodeRow.accepts (r : OpcodeRow) (w : Word) : Bool :=
  decide (w &&& r.mask = r.pattern) && (!r.pinChecks || pinChecksPass w)

/-- The host's view of the decoder: the instruction of the command word with value `w` (bit 0 is the least
significant, as spec/opcode_table.json numbers them; a command is one word, so no byte order arises: R52, R80). -/
def decodeTableWord (nbits w : Nat) : Option Instr :=
  match decode (BitVec.ofNat 32 (w % 2 ^ nbits)) with
  | .ok i => some i
  | .error _ => none

end Sys2Proof
end

