-- ==== Sys2Proof/Config.lean ====
section
/-! DEFINITION. What is fixed at construction (R7, R8, R9, R10, R27), and the free values of the model.
The concrete default table and defaults are in Machine/RegMap.lean. -/

namespace Sys2Proof

/-- R2, R7: the two variants of the block. -/
inductive Variant where
  | single
  | dual
  deriving DecidableEq, Repr

/-- R7: port 0 is A and port 1 is B. -/
inductive Port where
  | A
  | B
  deriving DecidableEq, Repr

/-- The ports a variant has, in port order (R7). -/
def Variant.ports : Variant → List Port
  | .single => [.A]
  | .dual => [.A, .B]

/-- R7: the port count P. -/
def Variant.portCount (v : Variant) : Nat := v.ports.length

/-- R7: NPINS = 8 × P. -/
def Variant.npins (v : Variant) : Nat := 8 * v.portCount

/-- R10: the three chip register addresses of one port. -/
structure RegRow where
  /-- `REG_DIR[p]` -/
  dir : RegAddr
  /-- `REG_IN[p]`, read by digitalRead -/
  input : RegAddr
  /-- `REG_OUT[p]`, written by digitalWrite and reset -/
  output : RegAddr
  deriving DecidableEq, Repr

/-- R10, R33: the register address table, one row for each row of R33. -/
structure RegTable where
  singleA : RegRow
  dualA : RegRow
  dualB : RegRow
  deriving DecidableEq, Repr

/-- The configuration record of R27 (all but VARIANT, whose one home is the shape of the cache: Machine/State.lean)
and the model parameters of R9 and R10. Fixed at construction; no step writes it. -/
structure Settings where
  /-- `ADDRESS` (R8): 7 bits -/
  address : ChipAddr
  /-- `BUS` (R8): an integer bus identifier -/
  bus : Int
  /-- `REVERSE` (R8, R14) -/
  reverse : Bool
  /-- `DEBUG` (R8, R172) -/
  debug : Bool
  /-- `NUMERIC_FOLLOWS_POLARITY` (R9, R104) -/
  numericFollowsPolarity : Bool
  /-- `READ_FOLLOWS_POLARITY` (R9, R141) -/
  readFollowsPolarity : Bool
  /-- `TRANSPORT_IN_ORDER` (R9, R60) -/
  transportInOrder : Bool
  /-- the `REG_*` table (R10, R33) -/
  regs : RegTable
  deriving DecidableEq, Repr

/-- FREE VALUE (log entry 7): the content of the log event written when `n` free values have been drawn. R31 leaves
it unspecified. -/
opaque Config.eventContent : Nat → Nat

/-- FREE VALUE (log entry 7): the contents, and so also the number, of the debug events appended at a trace point when
`n` free values have been drawn. R31 names neither the points nor the content. -/
opaque Config.debugEvents : Nat → List Nat

end Sys2Proof
end

