-- ==== Sys2Proof/Machine/RegMap.lean ====
section
/-! DEFINITION. The register address table of R33, the default options of R8 and R9, and the lookup of a port's row. -/

namespace Sys2Proof

/-- R33: the default register address table (dual-port cells read as input first, output second: R33, conflict C2). -/
def RegTable.default : RegTable where
  singleA := { dir := 0x00#8, input := 0x09#8, output := 0x09#8 }
  dualA := { dir := 0x00#8, input := 0x12#8, output := 0x14#8 }
  dualB := { dir := 0x01#8, input := 0x13#8, output := 0x15#8 }

/-- R10, R33: the row of a port. SINGLE has the one port A (R7), so its one row answers there. -/
def RegTable.row (t : RegTable) : Variant → Port → RegRow
  | .single, _ => t.singleA
  | .dual, .A => t.dualA
  | .dual, .B => t.dualB

/-- The settings at State.reset: the defaults of R8 and R9, and the address of R122's example, since ADDRESS has no
default (log entries 4 and 5). -/
def Settings.default : Settings where
  address := 0x20#7
  bus := 1
  reverse := false
  debug := false
  numericFollowsPolarity := false
  readFollowsPolarity := false
  transportInOrder := true
  regs := RegTable.default

end Sys2Proof
end

