-- ==== Sys2Proof/Machine/State.lean ====
section
/-! DEFINITION. The state of the block, its three ports, and the moves of the two other agents (R17): plain data. -/

namespace Sys2Proof.Machine

open Sys2Proof

/-- The two cache registers of one port (R20–R22). -/
structure PortRegs where
  /-- `dir[p]` (R21) -/
  dir : Byte
  /-- `out[p]` (R22) -/
  out : Byte
  deriving DecidableEq, Repr

/-- R20: the register cache, exactly 2 × P registers. Its shape is the VARIANT of R7 and R27, stored nowhere else. -/
inductive Cache where
  | single (a : PortRegs)
  | dual (a b : PortRegs)
  deriving DecidableEq, Repr

/-- R32: the two kinds of transaction, each with the chip's I2C address. -/
inductive Transaction where
  /-- `(W, a, reg, v)` -/
  | write (addr : ChipAddr) (reg : RegAddr) (v : Byte)
  /-- `(R, a, reg, tag, b)` -/
  | read (addr : ChipAddr) (reg : RegAddr) (tag : Nat) (b : BitOffset)
  deriving DecidableEq, Repr

/-- R32: an issued transaction with its issue index (R59). -/
structure Entry where
  index : Nat
  txn : Transaction
  deriving DecidableEq, Repr

/-- R160: the causes of InvalidArgument. -/
inductive Cause where
  | direction
  | pinType
  | pinRange
  | value
  deriving DecidableEq, Repr

/-- R36, R160: what a command returns on the outcome port. -/
inductive PortOutcome where
  | ok
  | issued (tag : Nat)
  | invalidArgument (cause : Cause)
  | refused
  deriving DecidableEq, Repr

/-- R36: what the result port delivers for a read. -/
inductive ReadValue where
  | level (r : Bool)
  | transportFailure
  deriving DecidableEq, Repr

/-- R36, R160: `Result(tag, r)`. -/
structure ReadResult where
  tag : Nat
  value : ReadValue
  deriving DecidableEq, Repr

/-- R31: which rule logs an event. -/
inductive LogKind where
  /-- R161 -/
  | invalidArgument (cause : Cause)
  /-- R62 -/
  | writeFailed
  /-- R172: an event of diagnostic tracing -/
  | debug
  deriving DecidableEq, Repr

/-- R31: an opaque diagnostic event; its content is a free value (log entry 7). -/
structure LogEvent where
  kind : LogKind
  content : Nat
  deriving DecidableEq, Repr

/-- R61, R180: a byte the chip received at a register. -/
structure Delivery where
  addr : ChipAddr
  reg : RegAddr
  v : Byte
  deriving DecidableEq, Repr

/-- R61–R64: how the transport resolves a transaction. The byte of a success is the read's free draw (R63, R180); for a
write nothing looks at it. -/
inductive Answer where
  | success (byte : Byte)
  | failure
  deriving DecidableEq, Repr

/-- R205: one move of a run by an agent other than the block: the host presents a command word, or the transport
resolves the pending transaction with an issue index. -/
inductive Turn where
  | command (w : Word)
  | complete (index : Nat) (a : Answer)
  deriving DecidableEq, Repr

/-- Why a step stops with a fault. -/
inductive Fault where
  /-- Raised by `step` when no move is left: the end of the run (R205). No command raises it. Safe: nothing is claimed
  beyond the end. -/
  | runEnded
  deriving DecidableEq, Repr

/-- Why a step, or a construction, is refused. No command of the opcode table raises one. -/
inductive Refusal where
  /-- Raised by an arm of `exec` for an instruction that has no meaning yet; no arm does. Safe. -/
  | notModelled (mnemonic : String)
  /-- Raised by a transport move that names no pending transaction: not a transport step of R60. Safe. -/
  | noSuchTransaction
  /-- Raised by a transport move that passes over a lower issue index although TRANSPORT_IN_ORDER holds: not a transport
  step of R60. Safe. -/
  | outOfIssueOrder
  /-- Raised by `construct`: `address` absent, not an integer, or outside 0..127 (R190, D22). Safe. -/
  | illegalAddress
  /-- Raised by `construct`: `bus` present and not an integer (R190, D22). Safe. -/
  | illegalBus
  /-- Raised by `construct`: `reverse` present and not a Boolean (R190, D22). Safe. -/
  | illegalReverse
  /-- Raised by `construct`: `debug` present and not a Boolean (R190, D22). Safe. -/
  | illegalDebug
  /-- Raised by `construct`: the premise of R192 (2), a successful open of the bus, does not hold. Safe. -/
  | busNotOpened
  deriving DecidableEq, Repr

/-- The whole state: the block's own (R39), its ports (R36, R37), and what the model keeps for itself. -/
structure State where
  /-- R27, R9, R10 -/
  settings : Settings
  /-- R20 -/
  cache : Cache
  /-- R29 -/
  busOpen : Bool
  /-- R32 -/
  pending : List Entry
  /-- R32, R58 -/
  nextTag : Nat
  /-- R31, oldest first -/
  log : List LogEvent
  /-- R41 -/
  refused : Bool
  /-- The outcome port (R36): every value put on it, oldest first (log entry 8). -/
  outcomes : List PortOutcome
  /-- The result port (R36): every value delivered on it, oldest first (log entry 8). -/
  results : List ReadResult
  /-- The transport port (R37): every request put on it, oldest first (log entry 8). -/
  issued : List Entry
  /-- R61, R180: every byte the chip received, oldest first (log entry 8). -/
  delivered : List Delivery
  /-- R205: the moves of the host and the transport still to come (log entry 1). -/
  turns : List Turn
  /-- How many free values have been drawn (log entry 7). -/
  draws : Nat
  deriving DecidableEq, Repr

/-- The state right after construction (R39, R190) with the settings of `Settings.default`, on the SINGLE variant (log
entry 4): pending holds exactly the init writes of R150. -/
def State.reset : State where
  settings := Settings.default
  cache := .single { dir := 0xFF#8, out := 0x00#8 }
  busOpen := true
  pending :=
    [⟨0, .write Settings.default.address Settings.default.regs.singleA.dir 0xFF#8⟩,
     ⟨1, .write Settings.default.address Settings.default.regs.singleA.output 0x00#8⟩]
  nextTag := 0
  log := []
  refused := false
  outcomes := []
  results := []
  issued :=
    [⟨0, .write Settings.default.address Settings.default.regs.singleA.dir 0xFF#8⟩,
     ⟨1, .write Settings.default.address Settings.default.regs.singleA.output 0x00#8⟩]
  delivered := []
  turns := []
  draws := 0

end Sys2Proof.Machine
end

