-- ==== Sys2Proof/Machine/Operands.lean ====
section
/-! DEFINITION. The pure functions of 40_common.md that the operations share: pin validation and resolution, operand
mapping, and the bit-select mutator. None reads or writes state except through its arguments. -/

namespace Sys2Proof.Machine

open Sys2Proof

/-- R100: `none` is the spec's OK. The comparison is on mathematical integers (R107). -/
def pinCheck (v : Variant) : Pin → Option Cause
  | .nonInt => some .pinType
  | .int k => if 0 ≤ k ∧ k < (v.npins : Int) then none else some .pinRange

/-- The bit offset of an offset integer in 0..7. -/
def bitOffsetOf (k : Int) : BitOffset := Fin.ofNat 8 k.toNat

/-- R101: the port and bit offset of a valid pin integer (the spec defines it only where `pinCheck` says OK; the
operations use it only there). -/
def resolve : Variant → Int → Port × BitOffset
  | .single, k => (.A, bitOffsetOf k)
  | .dual, k => if k < 8 then (.A, bitOffsetOf k) else (.B, bitOffsetOf (k - 8))

/-- The pin checks and the resolution in the order the operations use them: R100, then R101. -/
def locate (v : Variant) (pin : Pin) : Except Cause (Port × BitOffset) :=
  match pinCheck v pin, pin with
  | none, .int k => .ok (resolve v k)
  | none, .nonInt => .error .pinType
  | some c, _ => .error c

/-- R102: `1 << b` at 8 bits. -/
def mask (b : BitOffset) : Byte := 1#8 <<< b.val

/-- R106: `(byte >> b) & 1`, as a truth value. -/
def bitAt (byte : Byte) (b : BitOffset) : Bool := (byte >>> b.val) &&& 1#8 == 1#8

/-- R103; a bad direction has no bit. -/
def dirBit : Direction → Option Bool
  | .input => some true
  | .output => some false
  | .bad => none

/-- R14: the electrical level of logical HIGH. -/
def high (c : Settings) : Bool := !c.reverse

/-- R14: the electrical level of logical LOW. -/
def low (c : Settings) : Bool := c.reverse

/-- R104: the electrical level a write value commands; a bad value has none. -/
def levelOf (c : Settings) : WriteValue → Option Bool
  | .boolTrue => some (high c)
  | .boolFalse => some (low c)
  | .num1 => some (if c.numericFollowsPolarity then high c else true)
  | .num0 => some (if c.numericFollowsPolarity then low c else false)
  | .bad => none

/-- R105: the bit-select mutator: the new byte, and whether it changed. -/
def mutate (reg : Byte) (b : BitOffset) (want : Bool) : Byte × Bool :=
  if bitAt reg b = want then (reg, false) else (reg ^^^ mask b, true)

/-- R141: the value of a successful read of bit `b`. -/
def readLevel (c : Settings) (byte : Byte) (b : BitOffset) : Bool :=
  (bitAt byte b == true) ^^ (c.readFollowsPolarity && c.reverse)

/-- R160: the numeric code of an outcome. -/
def PortOutcome.code : PortOutcome → Nat
  | .ok => 0
  | .issued _ => 0
  | .invalidArgument .direction => 1
  | .invalidArgument .pinType => 2
  | .invalidArgument .pinRange => 3
  | .invalidArgument .value => 4
  | .refused => 15

/-- R160: the numeric code of a result; a level has none. -/
def ReadValue.code : ReadValue → Option Nat
  | .level _ => none
  | .transportFailure => some 5

end Sys2Proof.Machine
end

