-- ==== Sys2Proof/Machine/Ops.lean ====
section
/-! DEFINITION. The named operations over the state: the register cache, the issue primitives of R57 and R58, the
ports and the log of R12, the shared error operation of R161, the init sequence of R150, and taking the next move. -/

namespace Sys2Proof.Machine

open Sys2Proof

/-! ### The register cache (R20) -/

/-- R2: the variant is the shape of the cache. -/
def Cache.variant : Cache → Variant
  | .single _ => .single
  | .dual _ _ => .dual

/-- The registers of a port. SINGLE has only port A, and R101 resolves no pin to B there, so the port's name is not
looked at. -/
def Cache.port : Cache → Port → PortRegs
  | .single a, _ => a
  | .dual a _, .A => a
  | .dual _ b, .B => b

/-- Replace the registers of a port. -/
def Cache.setPort : Cache → Port → PortRegs → Cache
  | .single _, _, r => .single r
  | .dual _ b, .A, r => .dual r b
  | .dual a _, .B, r => .dual a r

/-- `VARIANT` (R7, R27). -/
def State.variant (s : State) : Variant := s.cache.variant

/-- `dir[p]` (R12). -/
def State.dir (s : State) (p : Port) : Byte := (s.cache.port p).dir

/-- `out[p]` (R12). -/
def State.out (s : State) (p : Port) : Byte := (s.cache.port p).out

/-- `dir[p] <- v` (R12): replaces the whole byte (R54). -/
def State.setDir (s : State) (p : Port) (v : Byte) : State :=
  { s with cache := s.cache.setPort p { s.cache.port p with dir := v } }

/-- `out[p] <- v` (R12). -/
def State.setOut (s : State) (p : Port) (v : Byte) : State :=
  { s with cache := s.cache.setPort p { s.cache.port p with out := v } }

/-- The chip registers of a port (R10, R33). -/
def State.regRow (s : State) (p : Port) : RegRow := s.settings.regs.row s.variant p

/-- `REG_DIR[p]`. -/
def State.regDir (s : State) (p : Port) : RegAddr := (s.regRow p).dir

/-- `REG_OUT[p]`. -/
def State.regOut (s : State) (p : Port) : RegAddr := (s.regRow p).output

/-- `REG_IN[p]`. -/
def State.regIn (s : State) (p : Port) : RegAddr := (s.regRow p).input

/-! ### Issuing transactions (R57–R59) -/

/-- Append a transaction to the pending set with the next issue index, which counts the block's issues (R32, R59). -/
def State.issue (s : State) (txn : Transaction) : State :=
  { s with
    pending := s.pending ++ [{ index := s.issued.length, txn := txn }]
    issued := s.issued ++ [{ index := s.issued.length, txn := txn }] }

/-- `IssueWrite(reg, v)` (R57). -/
def State.issueWrite (s : State) (reg : RegAddr) (v : Byte) : State :=
  s.issue (.write s.settings.address reg v)

/-- `IssueRead(reg, b)` (R58); the fresh tag it returns is `nextTag` before it. -/
def State.issueRead (s : State) (reg : RegAddr) (b : BitOffset) : State :=
  { s.issue (.read s.settings.address reg s.nextTag b) with nextTag := s.nextTag + 1 }

/-! ### The ports and the log (R12) -/

/-- `emit o`: put a value on the outcome port. -/
def State.emit (s : State) (o : PortOutcome) : State := { s with outcomes := s.outcomes ++ [o] }

/-- `deliver Result(tag, r)`: put a value on the result port. -/
def State.deliver (s : State) (r : ReadResult) : State := { s with results := s.results ++ [r] }

/-- `log(e)` (R31): append an event whose content is a free value (log entry 7). -/
def State.logEvent (s : State) (k : LogKind) : State :=
  { s with
    log := s.log ++ [{ kind := k, content := Config.eventContent s.draws }]
    draws := s.draws + 1 }

/-- R31, R172: a trace point; with DEBUG set any number of events of any content may be appended (log entry 7). -/
def State.trace (s : State) : State :=
  if s.settings.debug then
    { s with
      log := s.log ++ (Config.debugEvents s.draws).map (fun c => { kind := .debug, content := c })
      draws := s.draws + 1 }
  else s

/-- A step's body between two trace points: R172's events may fall before and after the step's own log event (a step has
at most one), at points the source does not name. -/
def State.traced (s : State) (body : State → State) : State := (body s.trace).trace

/-! ### Errors -/

/-- `raise InvalidArgument(cause)` (R161), the one shared error operation: a log event and the outcome, nothing else. -/
def State.raise (s : State) (c : Cause) : State :=
  (s.logEvent (.invalidArgument c)).emit (.invalidArgument c)

/-! ### The init sequence (R150, shared with construction R190) -/

/-- `for p in 0 .. P-1: body`. -/
def State.forPorts (s : State) (body : State → Port → State) : State := s.variant.ports.foldl body s

/-- R150: directions, direction writes, outputs, output writes, each in port order. -/
def State.initSequence (s : State) : State :=
  let s := s.forPorts (fun t p => t.setDir p 0xFF#8)
  let s := s.forPorts (fun t p => t.issueWrite (t.regDir p) 0xFF#8)
  let s := s.forPorts (fun t p => t.setOut p 0x00#8)
  s.forPorts (fun t p => t.issueWrite (t.regOut p) 0x00#8)

/-! ### The transport's side (R60–R64) -/

/-- Remove the selected entry from the pending set. -/
def State.removePending (s : State) (index : Nat) : State :=
  { s with pending := s.pending.eraseP (fun e => e.index == index) }

/-- R61: the chip receives a byte. -/
def State.receive (s : State) (d : Delivery) : State := { s with delivered := s.delivered ++ [d] }

/-! ### The moves of the other agents (R205) -/

/-- The state once the moves still to come are `rest`. -/
def State.withTurns (s : State) (rest : List Turn) : State := { s with turns := rest }

/-- The next move of the run, and the state without it. -/
def State.nextTurn (s : State) : Option (Turn × State) :=
  match s.turns with
  | [] => none
  | m :: rest => some (m, s.withTurns rest)

/-- The host presents a command word as the next move (R36, R38). -/
def State.present (s : State) (w : Word) : State := s.withTurns (.command w :: s.turns)

end Sys2Proof.Machine
end

