-- ==== Sys2Proof/Machine/Construct.lean ====
section
/-! DEFINITION. Construction (70_reset_and_hazards.md R190, R192): the block's power-on reset and only entry point. -/

namespace Sys2Proof.Machine

open Sys2Proof

/-- A host value given for an option: the classes R190 tells apart. -/
inductive OptionValue where
  | absent
  | int (k : Int)
  | bool (b : Bool)
  /-- any other value -/
  | other
  deriving DecidableEq, Repr

/-- What the host supplies: the options of R8, the variant it instantiates, the model parameters of R9 and R10, and the
premise of R192 (2) that the bus opens. -/
structure Options where
  variant : Variant
  address : OptionValue
  bus : OptionValue
  reverse : OptionValue
  debug : OptionValue
  numericFollowsPolarity : Bool
  readFollowsPolarity : Bool
  transportInOrder : Bool
  regs : RegTable
  busOpens : Bool
  deriving DecidableEq, Repr

/-- R190: `address` is an integer in 0..127. -/
def OptionValue.address? : OptionValue → Option ChipAddr
  | .int k => if 0 ≤ k ∧ k ≤ 127 then some (BitVec.ofInt 7 k) else none
  | .absent => none
  | .bool _ => none
  | .other => none

/-- R190: absent (then the default) or an integer. -/
def OptionValue.intOr? (dflt : Int) : OptionValue → Option Int
  | .absent => some dflt
  | .int k => some k
  | .bool _ => none
  | .other => none

/-- R190: absent (then the default) or a Boolean. -/
def OptionValue.boolOr? (dflt : Bool) : OptionValue → Option Bool
  | .absent => some dflt
  | .bool b => some b
  | .int _ => none
  | .other => none

/-- The cache of a variant with the values of R21 and R22. -/
def Cache.initial : Variant → Cache
  | .single => .single { dir := 0xFF#8, out := 0x00#8 }
  | .dual => .dual { dir := 0xFF#8, out := 0x00#8 } { dir := 0xFF#8, out := 0x00#8 }

/-- The assignments of R190 before its init sequence, with no moves placed yet (log entry 1). -/
def State.blank (v : Variant) (c : Settings) : State where
  settings := c
  cache := Cache.initial v
  busOpen := true
  pending := []
  nextTag := 0
  log := []
  refused := false
  outcomes := []
  results := []
  issued := []
  delivered := []
  turns := []
  draws := 0

/-- R190: check the options in its order, set the fields, run the init sequence. Illegal options, and a bus that does not
open, give no instance (D22). -/
def construct (o : Options) : Host.Outcome State Fault Refusal :=
  match o.address.address?, OptionValue.intOr? 1 o.bus,
    OptionValue.boolOr? false o.reverse, OptionValue.boolOr? false o.debug with
  | none, _, _, _ => .refused .illegalAddress
  | some _, none, _, _ => .refused .illegalBus
  | some _, some _, none, _ => .refused .illegalReverse
  | some _, some _, some _, none => .refused .illegalDebug
  | some address, some bus, some reverse, some debug =>
    if o.busOpens then
      .next ((State.blank o.variant
        { address := address
          bus := bus
          reverse := reverse
          debug := debug
          numericFollowsPolarity := o.numericFollowsPolarity
          readFollowsPolarity := o.readFollowsPolarity
          transportInOrder := o.transportInOrder
          regs := o.regs }).traced State.initSequence)
    else .refused .busNotOpened

/-- The options of State.reset: SINGLE at R122's address, every other option absent, the parameters at R9's and R10's
defaults (log entries 4 and 5). -/
def Options.default : Options where
  variant := .single
  address := .int 0x20
  bus := .absent
  reverse := .absent
  debug := .absent
  numericFollowsPolarity := false
  readFollowsPolarity := false
  transportInOrder := true
  regs := RegTable.default
  busOpens := true

end Sys2Proof.Machine
end

