-- ==== Sys2Proof/Machine/DigitalRead.lean ====
section
/-! DEFINITION. digitalRead, the issue step (43_digital_read.md R140). Its completion (R141) is a transport step:
Machine/Transport.lean. -/

namespace Sys2Proof.Machine

open Sys2Proof

/-- R140, statement by statement. -/
def digitalReadBody (pin : Pin) (s : State) : State :=
  match locate s.variant pin with
  | .error c => s.raise c
  | .ok (p, b) => (s.issueRead (s.regIn p) b).emit (.issued s.nextTag)

/-- R140: one atomic step (R50). -/
def execDigitalRead (pin : Pin) (s : State) : Host.Outcome State Fault Refusal :=
  .next (s.traced (digitalReadBody pin))

end Sys2Proof.Machine
end

