-- ==== Sys2Proof/Machine/DigitalWrite.lean ====
section
/-! DEFINITION. digitalWrite (42_digital_write.md). -/

namespace Sys2Proof.Machine

open Sys2Proof

/-- R130, statement by statement. There is no direction check (R197). -/
def digitalWriteBody (pin : Pin) (val : WriteValue) (s : State) : State :=
  match levelOf s.settings val with
  | none => s.raise .value
  | some lvl =>
    match locate s.variant pin with
    | .error c => s.raise c
    | .ok (p, b) =>
      let m := mutate (s.out p) b lvl
      if m.2 then ((s.setOut p m.1).issueWrite (s.regOut p) m.1).emit .ok
      else s.emit .ok

/-- R130: one atomic step (R50). -/
def execDigitalWrite (pin : Pin) (val : WriteValue) (s : State) : Host.Outcome State Fault Refusal :=
  .next (s.traced (digitalWriteBody pin val))

end Sys2Proof.Machine
end

