-- ==== Sys2Proof/Machine/PinMode.lean ====
section
/-! DEFINITION. pinMode (41_pin_mode.md). -/

namespace Sys2Proof.Machine

open Sys2Proof

/-- R120, statement by statement. -/
def pinModeBody (pin : Pin) (d : Direction) (s : State) : State :=
  match dirBit d with
  | none => s.raise .direction
  | some want =>
    match locate s.variant pin with
    | .error c => s.raise c
    | .ok (p, b) =>
      let m := mutate (s.dir p) b want
      if m.2 then ((s.setDir p m.1).issueWrite (s.regDir p) m.1).emit .ok
      else s.emit .ok

/-- R120: one atomic step (R50). -/
def execPinMode (pin : Pin) (d : Direction) (s : State) : Host.Outcome State Fault Refusal :=
  .next (s.traced (pinModeBody pin d))

end Sys2Proof.Machine
end

