-- ==== Sys2Proof/Machine/Reset.lean ====
section
/-! DEFINITION. The reset command (44_reset.md). -/

namespace Sys2Proof.Machine

open Sys2Proof

/-- R150; what it leaves alone is R151. -/
def resetBody (s : State) : State := s.initSequence.emit .ok

/-- R150: one atomic step (R50). -/
def execReset (s : State) : Host.Outcome State Fault Refusal := .next (s.traced resetBody)

end Sys2Proof.Machine
end

