-- ==== Sys2Proof/Machine/Dispatch.lean ====
section
/-! DEFINITION. One arm per command. -/

namespace Sys2Proof.Machine

open Sys2Proof

def exec (i : Instr) (s : State) : Host.Outcome State Fault Refusal :=
  match i with
  | .pinMode pin d => Sys2Proof.Machine.execPinMode pin d s
  | .digitalWrite pin val => Sys2Proof.Machine.execDigitalWrite pin val s
  | .digitalRead pin => Sys2Proof.Machine.execDigitalRead pin s
  | .reset => Sys2Proof.Machine.execReset s

end Sys2Proof.Machine
end

