-- ==== Sys2Proof/Machine/Flags.lean ====
section
/-! DEFINITION. The block has no condition codes, status flags or predicates (R30), so no operation computes a flag. The
one bit a step of the model sets is the sticky `refused` mark of R41, set by a refused word (R90). -/

namespace Sys2Proof.Machine

/-- R41, R90: `refused <- true`. No operation sets it to false. -/
def State.markRefused (s : State) : State := { s with refused := true }

/-- R90: the step of a command word that spells no operation. -/
def State.refuseWord (s : State) : State := s.traced (fun t => t.markRefused.emit .refused)

end Sys2Proof.Machine
end

