-- ==== Sys2Proof/Machine/Transport.lean ====
section
/-! DEFINITION. The transport agent (20_memory.md R60–R66) and the completion of a read (R141). -/

namespace Sys2Proof.Machine

open Sys2Proof

/-- R60: with TRANSPORT_IN_ORDER only the entry with the lowest issue index may be selected; otherwise any. -/
def State.maySelect (s : State) (index : Nat) : Bool :=
  !s.settings.transportInOrder || s.pending.all (fun e => decide (index ≤ e.index))

/-- R61–R64, R141: what the resolution of a transaction does, once its entry is removed. -/
def resolveTransaction (txn : Transaction) (a : Answer) (s : State) : State :=
  match txn, a with
  | .write addr reg v, .success _ => s.receive { addr := addr, reg := reg, v := v }
  | .write _ _ _, .failure => s.logEvent .writeFailed
  | .read _ _ tag b, .success byte => s.deliver { tag := tag, value := .level (readLevel s.settings byte b) }
  | .read _ _ tag _, .failure => s.deliver { tag := tag, value := .transportFailure }

/-- One transport step: the transaction with this issue index is resolved with this answer. A move R60 does not admit is
refused by name (log entry 16). -/
def transportStep (index : Nat) (a : Answer) (s : State) : Host.Outcome State Fault Refusal :=
  match s.pending.find? (fun e => e.index == index) with
  | none => .refused .noSuchTransaction
  | some e =>
    if s.maySelect index then .next ((s.removePending index).traced (resolveTransaction e.txn a))
    else .refused .outOfIssueOrder

end Sys2Proof.Machine
end

