-- ==== Sys2Proof/Machine/Step.lean ====
section
/-! DEFINITION. One step of a run (R205): the next move is taken, and the agent it belongs to makes its one atomic step
(R50, R164). -/

namespace Sys2Proof.Machine

open Sys2Proof

/-- R50, R89, R90: the block's step on a command word. -/
def commandStep (w : Word) (s : State) : Host.Outcome State Fault Refusal :=
  match decode w with
  | .ok i => exec i s
  | .error _ => .next s.refuseWord

/-- One step of the run. -/
def step (s : State) : Host.Outcome State Fault Refusal :=
  match s.nextTurn with
  | none => .fault .runEnded
  | some (.command w, t) => commandStep w t
  | some (.complete index a, t) => transportStep index a t

/-- The command word with value `w` placed where the next step takes its command: the host presents it next. -/
def State.withFetchWord (s : State) (nbits w : Nat) : State := s.present (BitVec.ofNat 32 (w % 2 ^ nbits))

end Sys2Proof.Machine
end

