-- ==== Sys2Proof/Machine/Assembler.lean ====
section
/-! DEFINITION. The assembler syntax of R93: one line of text to one command word. There are no pseudo-instructions
(R94). R93 gives the grammar; blanks, and the spelling of numbers, are the model's (log entry 20). -/

namespace Sys2Proof.Machine

open Sys2Proof

/-- What one line assembles to. -/
inductive AsmLine where
  /-- an empty line, or only a comment -/
  | empty
  | word (w : Word)
  | illegal
  deriving DecidableEq, Repr

/-- R93: a comment starts with `;` and runs to the end of the line. -/
def stripComment : List Char → List Char
  | [] => []
  | c :: cs => if c = ';' then [] else c :: stripComment cs

/-- Close the token `cur` (kept in reverse). -/
def closeToken (cur : List Char) (rest : List (List Char)) : List (List Char) :=
  if cur.isEmpty then rest else cur.reverse :: rest

/-- Split at blanks; a comma is a token of its own. -/
def tokensFrom (cur : List Char) : List Char → List (List Char)
  | [] => closeToken cur []
  | c :: cs =>
    if c = ' ' ∨ c = '\t' ∨ c = '\r' then closeToken cur (tokensFrom [] cs)
    else if c = ',' then closeToken cur ([','] :: tokensFrom [] cs)
    else tokensFrom (c :: cur) cs

/-- The value of a digit in a base up to 16. -/
def digitValue (base : Nat) (c : Char) : Option Nat :=
  let d :=
    if '0' ≤ c ∧ c ≤ '9' then some (c.toNat - '0'.toNat)
    else if 'a' ≤ c ∧ c ≤ 'f' then some (c.toNat - 'a'.toNat + 10)
    else if 'A' ≤ c ∧ c ≤ 'F' then some (c.toNat - 'A'.toNat + 10)
    else none
  d.filter (fun n => decide (n < base))

/-- A number read on from `acc`. -/
def digitsFrom (base acc : Nat) : List Char → Option Nat
  | [] => some acc
  | c :: cs =>
    match digitValue base c with
    | none => none
    | some d => digitsFrom base (acc * base + d) cs

/-- One or more digits. -/
def parseNat (base : Nat) (cs : List Char) : Option Nat := if cs.isEmpty then none else digitsFrom base 0 cs

/-- R93's `<pin>`: a decimal integer in -32768..32767, or `NONINT`. -/
def parsePin (cs : List Char) : Option Pin :=
  if cs = "NONINT".toList then some .nonInt
  else
    let k : Option Int :=
      match cs with
      | '-' :: ds => (parseNat 10 ds).map (fun n => -(n : Int))
      | _ => (parseNat 10 cs).map (fun n => (n : Int))
    (k.map Pin.int).filter Pin.wellFormed

/-- A code written after a name: the name alone is `dflt`; otherwise a decimal number from `dflt` to 15. -/
def parseCode (dflt : Nat) (cs : List Char) : Option (BitVec 4) :=
  if cs.isEmpty then some (BitVec.ofNat 4 dflt)
  else ((parseNat 10 cs).filter (fun n => decide (dflt ≤ n ∧ n ≤ 15))).map (BitVec.ofNat 4)

/-- R93's `<dir>`, as its `ARG` code (R84). -/
def parseDir (cs : List Char) : Option (BitVec 4) :=
  if cs = "OUTPUT".toList then some 0#4
  else if cs = "INPUT".toList then some 1#4
  else if cs.take 6 = "BADDIR".toList then parseCode 2 (cs.drop 6)
  else none

/-- R93's `<val>`, as its `ARG` code (R85). -/
def parseVal (cs : List Char) : Option (BitVec 4) :=
  if cs = "0".toList then some 0#4
  else if cs = "1".toList then some 1#4
  else if cs = "false".toList then some 2#4
  else if cs = "true".toList then some 3#4
  else if cs.take 6 = "BADVAL".toList then parseCode 4 (cs.drop 6)
  else none

/-- R93's `<hex>`: `0x` and hexadecimal digits, a 32-bit value. -/
def parseHex : List Char → Option Word
  | '0' :: 'x' :: ds => ((parseNat 16 ds).filter (fun n => decide (n < 2 ^ 32))).map (BitVec.ofNat 32)
  | _ => none

/-- The line a parsed operand list stands for. -/
def AsmLine.ofWord? : Option Word → AsmLine
  | some w => .word w
  | none => .illegal

/-- R93: one line's tokens. -/
def assembleTokens : List (List Char) → AsmLine
  | [] => .empty
  | [m] => if m = "reset".toList then .word (encode .reset) else .illegal
  | [m, x] =>
    if m = "digitalRead".toList then AsmLine.ofWord? ((parsePin x).map (fun pin => encode (.digitalRead pin)))
    else if m = ".word".toList then AsmLine.ofWord? (parseHex x)
    else .illegal
  | [m, x, c, y] =>
    if c ≠ [','] then .illegal
    else if m = "pinMode".toList then
      match parsePin x, parseDir y with
      | some pin, some code => .word (makeWord Operation.pinMode.code pin.kindBits code pin.bits)
      | _, _ => .illegal
    else if m = "digitalWrite".toList then
      match parsePin x, parseVal y with
      | some pin, some code => .word (makeWord Operation.digitalWrite.code pin.kindBits code pin.bits)
      | _, _ => .illegal
    else .illegal
  | _ => .illegal

/-- R93: assemble one line. -/
def assembleLine (line : String) : AsmLine := assembleTokens (tokensFrom [] (stripComment line.toList))

/-- R93: one command per line; `none` if some line is illegal. -/
def assembleLines : List String → Option (List Word)
  | [] => some []
  | l :: ls =>
    match assembleLine l, assembleLines ls with
    | .empty, some ws => some ws
    | .word w, some ws => some (w :: ws)
    | _, _ => none

end Sys2Proof.Machine
end

