-- ==== Sys2Proof/Safety.lean ====
section
/-! DEFINITION. The terms claims are stated in: what was issued and received for a register, the invariants of a run,
what a log gains, and which states agree up to diagnostics. -/

namespace Sys2Proof.Machine

open Sys2Proof

/-! ### Requests and receipts -/

/-- Transactions numbered as `issue` numbers them, from issue index `n` on (R59). -/
def numbered (n : Nat) : List Transaction → List Entry
  | [] => []
  | x :: xs => { index := n, txn := x } :: numbered (n + 1) xs

/-- The byte a transaction writes to a register, if it does. -/
def Transaction.writeTo? (reg : RegAddr) : Transaction → Option Byte
  | .write _ r v => if r = reg then some v else none
  | .read _ _ _ _ => none

/-- The tag of a read. -/
def Transaction.tag? : Transaction → Option Nat
  | .write _ _ _ => none
  | .read _ _ tag _ => some tag

/-- The bytes written to a register by a list of entries, oldest first. -/
def writesTo (reg : RegAddr) (es : List Entry) : List Byte := es.filterMap (fun e => e.txn.writeTo? reg)

/-- The value of the most recently issued write to a register (R24). -/
def State.lastIssued (s : State) (reg : RegAddr) : Option Byte := (writesTo reg s.issued).getLast?

/-- The bytes the chip received at a register, oldest first (R61, R180). -/
def State.received (s : State) (reg : RegAddr) : List Byte :=
  s.delivered.filterMap (fun d => if d.reg = reg then some d.v else none)

/-- The last byte the chip received at a register (R67). -/
def State.lastReceived (s : State) (reg : RegAddr) : Option Byte := (s.received reg).getLast?

/-- The registers the block writes: REG_DIR[p] and REG_OUT[p] of every port. -/
def State.writeAddrs (s : State) : List RegAddr := s.variant.ports.flatMap (fun p => [s.regDir p, s.regOut p])

/-- The registers the block reads: REG_IN[p] of every port. -/
def State.readAddrs (s : State) : List RegAddr := s.variant.ports.map s.regIn

/-- The init writes of R150, in its order: every direction write, then every output write, each in port order. -/
def State.initWrites (s : State) : List Transaction :=
  s.variant.ports.map (fun p => .write s.settings.address (s.regDir p) 0xFF#8) ++
    s.variant.ports.map (fun p => .write s.settings.address (s.regOut p) 0x00#8)

/-- `t` has exactly these transactions more than `s`, issued last and in this order (R57–R59). -/
structure Issues (s t : State) (txns : List Transaction) : Prop where
  pending : t.pending = s.pending ++ numbered s.issued.length txns
  issued : t.issued = s.issued ++ numbered s.issued.length txns

/-! ### Invariants -/

/-- No two written registers share an address. R33's default table has this; the table is a parameter (R10), and R24
says nothing of a table without it. -/
abbrev State.WriteAddrsDistinct (s : State) : Prop := s.writeAddrs.Nodup

/-- R24: each cache register equals the value of the most recently issued write to its chip register. -/
abbrev State.CacheTracksBus (s : State) : Prop :=
  ∀ p ∈ s.variant.ports, s.lastIssued (s.regDir p) = some (s.dir p) ∧ s.lastIssued (s.regOut p) = some (s.out p)

/-- R32, R58, R59: issue indices count the issues, tags count the reads, and what is pending was issued, in issue order. -/
structure State.BookKept (s : State) : Prop where
  indices : s.issued.map Entry.index = List.range s.issued.length
  tags : s.issued.filterMap (fun e => e.txn.tag?) = List.range s.nextTag
  pending : s.pending.Sublist s.issued

/-- R56: a transaction goes to the chip at ADDRESS, a write to a written register and a read to a read register. -/
def State.Admits (s : State) : Transaction → Prop
  | .write a r _ => a = s.settings.address ∧ r ∈ s.writeAddrs
  | .read a r _ _ => a = s.settings.address ∧ r ∈ s.readAddrs

/-- R56: every transaction ever issued is admitted, and the chip received only bytes that were issued to it. -/
structure State.WellAddressed (s : State) : Prop where
  issued : ∀ e ∈ s.issued, s.Admits e.txn
  delivered : ∀ d ∈ s.delivered, ∃ e ∈ s.issued, e.txn = .write d.addr d.reg d.v

/-- R67 (c): for a register, what the chip received and what is still pending is everything issued, in issue order. -/
abbrev State.Settled (s : State) (reg : RegAddr) : Prop :=
  s.received reg ++ writesTo reg s.pending = writesTo reg s.issued

/-- The next move fails a pending write to this register. -/
def State.NextFailsWriteTo (s : State) (reg : RegAddr) : Prop :=
  ∃ index rest, s.turns = .complete index .failure :: rest ∧
    ∃ e ∈ s.pending, e.index = index ∧ (e.txn.writeTo? reg).isSome = true

/-! ### Logs and diagnostics -/

/-- The log of `t` is that of `s` with events of these kinds appended, and with debug events around them only where
DEBUG is set (R31, R172). -/
def LogGains (s t : State) (kinds : List LogKind) : Prop :=
  ∃ pre mid post : List LogEvent,
    t.log = s.log ++ pre ++ mid ++ post ∧ mid.map LogEvent.kind = kinds ∧
      (∀ e ∈ pre ++ post, e.kind = .debug) ∧ (s.settings.debug = false → pre ++ post = [])

/-- A state without what diagnostics touch: DEBUG, the log, and the count of free values drawn. -/
def State.withoutDiagnostics (s : State) : State :=
  { s with
    settings := { s.settings with debug := false }
    log := []
    draws := 0 }

/-- Two answers of a step that agree up to diagnostics. -/
def AgreeUpToDiagnostics : Host.Outcome State Fault Refusal → Host.Outcome State Fault Refusal → Prop
  | .next s, .next t => s.withoutDiagnostics = t.withoutDiagnostics
  | .fault a, .fault b => a = b
  | .refused a, .refused b => a = b
  | .next _, .fault _ => False
  | .next _, .refused _ => False
  | .fault _, .next _ => False
  | .fault _, .refused _ => False
  | .refused _, .next _ => False
  | .refused _, .fault _ => False

/-- `t` differs from `s` at most in the outcome port, the log and its counter: what R161 lets a rejected command change. -/
structure NoEffect (s t : State) : Prop where
  settings : t.settings = s.settings
  cache : t.cache = s.cache
  busOpen : t.busOpen = s.busOpen
  pending : t.pending = s.pending
  nextTag : t.nextTag = s.nextTag
  refused : t.refused = s.refused
  results : t.results = s.results
  issued : t.issued = s.issued
  delivered : t.delivered = s.delivered
  turns : t.turns = s.turns

end Sys2Proof.Machine
end

