-- ==== Sys2Proof/Certificates/Slice0/Obligations.lean ====
section
/-! DEFINITION. The statements about the model, each with the rule or section of spec/ it formalises. A statement that
rests on a decision (D<n>) or an inference of the spec's own, or on a choice of the model, says so. -/

open Sys2Proof Sys2Proof.Machine

/-! ### Encoding (30_encoding.md) -/

/-- R81–R86, R89 (the encoding is the spec's own decision D2): the decoder reads back every well-formed command from its
word, with every operand at every encodable value. -/
def Obligations.DecodeEncodeRoundTrip : Prop :=
  ∀ i : Instr, i.wellFormed = true → decode (encode i) = .ok i

/-- The other direction (D2, D27). What a word decodes to is well-formed, and its own word differs from it at most in
ARG, and there only where ARG is one of the many codes of a bad operand (R84, R85; log entry 11). -/
def Obligations.DecodedCommandEncodesToItsWord : Prop :=
  ∀ (w : Word) (i : Instr), decode w = .ok i →
    i.wellFormed = true ∧ encode i &&& 0xFFF0FFFF#32 = w &&& 0xFFF0FFFF#32 ∧
      ((∀ pin, i ≠ .pinMode pin .bad) → (∀ pin, i ≠ .digitalWrite pin .bad) → encode i = w)

/-- R87, R88 (D2): a word decodes to an operation exactly when it matches that operation's row of the opcode map, and it
matches at most one row. -/
def Obligations.DecodeAgreesWithOpcodeMap : Prop :=
  (∀ (w : Word) (op : Operation),
    (∃ i, decode w = .ok i ∧ i.operation = op) ↔ ∃ r ∈ opcodeMap, r.operation = op ∧ r.accepts w = true) ∧
  (∀ (w : Word) (r q : OpcodeRow), r ∈ opcodeMap → q ∈ opcodeMap → r.accepts w = true → q.accepts w = true → r = q)

/-- R95 (derived in the spec from R81–R89): its assembled words decode to their commands, written out word by word,
and its refused words decode to none. -/
def Obligations.WordsOfTheSpecDecode : Prop :=
  (∀ x ∈ [
      (0x10000003#32, Instr.pinMode (.int 3) .output),
      (0x10010003#32, .pinMode (.int 3) .input),
      (0x1001FFFF#32, .pinMode (.int (-1)) .input),
      (0x10410000#32, .pinMode .nonInt .input),
      (0x10020003#32, .pinMode (.int 3) .bad),
      (0x1000000F#32, .pinMode (.int 15) .output),
      (0x20010003#32, .digitalWrite (.int 3) .num1),
      (0x20030003#32, .digitalWrite (.int 3) .boolTrue),
      (0x20020003#32, .digitalWrite (.int 3) .boolFalse),
      (0x20000003#32, .digitalWrite (.int 3) .num0),
      (0x20040063#32, .digitalWrite (.int 99) .bad),
      (0x30000005#32, .digitalRead (.int 5)),
      (0x30000010#32, .digitalRead (.int 16)),
      (0x40000000#32, .reset)],
    decodeTableWord 32 x.1.toNat = some x.2) ∧
  (∀ w ∈ [0x00000000#32, 0x50000000#32, 0x11000003#32, 0x10800003#32, 0x10410001#32, 0x30010005#32, 0x40000001#32],
    decodeTableWord 32 w.toNat = none)

/-- R93 and the table of R95 (decision D3, derived): the assembly text of each example gives its word. -/
def Obligations.AssemblyTextGivesTheWords : Prop :=
  ∀ x ∈ [
      ("pinMode 3, OUTPUT", 0x10000003#32),
      ("pinMode 3, INPUT", 0x10010003#32),
      ("pinMode -1, INPUT", 0x1001FFFF#32),
      ("pinMode NONINT, INPUT", 0x10410000#32),
      ("pinMode 3, BADDIR2", 0x10020003#32),
      ("pinMode 15, OUTPUT", 0x1000000F#32),
      ("digitalWrite 3, 1", 0x20010003#32),
      ("digitalWrite 3, true", 0x20030003#32),
      ("digitalWrite 3, false", 0x20020003#32),
      ("digitalWrite 3, 0", 0x20000003#32),
      ("digitalWrite 99, BADVAL4", 0x20040063#32),
      ("digitalRead 5", 0x30000005#32),
      ("digitalRead 16", 0x30000010#32),
      ("reset", 0x40000000#32)],
    assembleLine x.1 = .word x.2

/-- R90 (decision D4): a word that spells no operation puts Refused on the outcome port and sets the mark; it changes no
cache register and issues nothing. -/
def Obligations.RefusedWordOnlySetsTheMark : Prop :=
  ∀ (s : State) (w : Word) (rest : List Turn), s.turns = .command w :: rest → (∀ i, decode w ≠ .ok i) →
    ∃ t, step s = .next t ∧ t.refused = true ∧ t.outcomes = s.outcomes ++ [.refused] ∧ t.cache = s.cache ∧
      t.pending = s.pending ∧ t.issued = s.issued ∧ t.delivered = s.delivered ∧ t.results = s.results ∧
      t.nextTag = s.nextTag ∧ t.settings = s.settings ∧ t.busOpen = s.busOpen ∧ t.turns = rest ∧ LogGains s t []

/-- R41 (decision D4): no step clears the mark, and only a refused command word sets it. -/
def Obligations.RefusedMarkIsSticky : Prop :=
  ∀ s t : State, step s = .next t →
    (s.refused = true → t.refused = true) ∧
    (s.refused = false → t.refused = true → ∃ w rest e, s.turns = .command w :: rest ∧ decode w = .error e)

/-! ### Shared functions (40_common.md) -/

/-- R100: the verdict on a pin, and that each operation which takes a pin answers a pin it rejects with InvalidArgument
and no other effect. That digitalRead gives this outcome at its issue step is the spec's own choice (decision D7, R140;
log entry 12). -/
def Obligations.PinCheckVerdicts : Prop :=
  (∀ v : Variant, pinCheck v .nonInt = some .pinType) ∧
  (∀ k : Int, (0 ≤ k ∧ k < 8 → pinCheck .single (.int k) = none) ∧
    (¬(0 ≤ k ∧ k < 8) → pinCheck .single (.int k) = some .pinRange)) ∧
  (∀ k : Int, (0 ≤ k ∧ k < 16 → pinCheck .dual (.int k) = none) ∧
    (¬(0 ≤ k ∧ k < 16) → pinCheck .dual (.int k) = some .pinRange)) ∧
  (∀ (s : State) (pin : Pin) (c : Cause), pinCheck s.variant pin = some c →
    ∀ i : Instr, (∃ d, d ≠ .bad ∧ i = .pinMode pin d) ∨ (∃ val, val ≠ .bad ∧ i = .digitalWrite pin val) ∨
        i = .digitalRead pin →
      ∃ t, exec i s = .next t ∧ t.outcomes = s.outcomes ++ [.invalidArgument c] ∧ NoEffect s t)

/-- R101 (its last sentence is derived in the spec): where a valid pin lies, and that no two valid pins share a place. -/
def Obligations.PinsResolveToDistinctPlaces : Prop :=
  (∀ k : Int, pinCheck .single (.int k) = none →
    (resolve .single k).1 = .A ∧ ((resolve .single k).2.val : Int) = k) ∧
  (∀ k : Int, pinCheck .dual (.int k) = none →
    (k < 8 → (resolve .dual k).1 = .A ∧ ((resolve .dual k).2.val : Int) = k) ∧
    (8 ≤ k → (resolve .dual k).1 = .B ∧ ((resolve .dual k).2.val : Int) = k - 8)) ∧
  (∀ (v : Variant) (k : Int), (resolve v k).1 ∈ v.ports) ∧
  (∀ (v : Variant) (j k : Int), pinCheck v (.int j) = none → pinCheck v (.int k) = none →
    resolve v j = resolve v k → j = k)

/-- R102: the mask of an offset is `1 << b` and has exactly bit b set. -/
def Obligations.MaskHasExactlyOneBit : Prop :=
  ∀ b : BitOffset, mask b = 1#8 <<< b.val ∧ ∀ j : BitOffset, (mask b).getLsbD j.val = true ↔ j = b

/-- R103: the direction bits; a bad direction has none, and pinMode rejects it. That the cause is DIRECTION on an invalid
pin too is the spec's own choice of which error comes first (decision D6, R163; log entry 12). -/
def Obligations.DirectionBits : Prop :=
  dirBit .input = some true ∧ dirBit .output = some false ∧ dirBit .bad = none ∧
    ∀ (s : State) (pin : Pin), ∃ t, exec (.pinMode pin .bad) s = .next t ∧
      t.outcomes = s.outcomes ++ [.invalidArgument .direction] ∧ NoEffect s t

/-- R104 with R14 (its unswapped values, and the agreement without REVERSE, are derived in the spec; the parameter is
decision D8): the level of each write value, under both readings. -/
def Obligations.LevelMapping : Prop :=
  (∀ c : Settings, c.reverse = false → high c = true ∧ low c = false) ∧
  (∀ c : Settings, c.reverse = true → high c = false ∧ low c = true) ∧
  (∀ c : Settings, levelOf c .boolTrue = some (high c) ∧ levelOf c .boolFalse = some (low c) ∧ levelOf c .bad = none) ∧
  (∀ c : Settings, c.numericFollowsPolarity = true →
    levelOf c .num1 = some (high c) ∧ levelOf c .num0 = some (low c)) ∧
  (∀ c : Settings, c.numericFollowsPolarity = false → levelOf c .num1 = some true ∧ levelOf c .num0 = some false) ∧
  (∀ c : Settings, c.reverse = false → levelOf c .num1 = some true ∧ levelOf c .num0 = some false)

/-- R105 (its laws are derived in the spec from its two branches): the mutator's branches and laws. -/
def Obligations.MutatorSetsExactlyOneBit : Prop :=
  ∀ (reg : Byte) (b : BitOffset) (want : Bool),
    (reg.getLsbD b.val = want → mutate reg b want = (reg, false)) ∧
    (reg.getLsbD b.val ≠ want → mutate reg b want = (reg ^^^ mask b, true)) ∧
    (mutate reg b want).1.getLsbD b.val = want ∧
    (∀ j : BitOffset, j ≠ b → (mutate reg b want).1.getLsbD j.val = reg.getLsbD j.val) ∧
    ((mutate reg b want).2 = true ↔ reg.getLsbD b.val ≠ want) ∧
    ((mutate reg b want).1 ≠ reg ↔ (mutate reg b want).2 = true)

/-- R106: the bit test, and that a read not inverted by polarity is that test. -/
def Obligations.BitTestIsTheBit : Prop :=
  (∀ (byte : Byte) (b : BitOffset), (bitAt byte b = true ↔ (byte >>> b.val) &&& 1#8 = 1#8) ∧
    bitAt byte b = byte.getLsbD b.val) ∧
  (∀ (c : Settings) (byte : Byte) (b : BitOffset), (c.readFollowsPolarity && c.reverse) = false →
    readLevel c byte b = bitAt byte b)

/-! ### pinMode (41_pin_mode.md) -/

/-- 41_pin_mode.md's pseudocode and the first four rows of R25 (derived in the spec): on a valid pin and direction,
pinMode completes with Ok, the pin's bit is the direction's, the other bits of that byte stay, and the whole new byte is
issued exactly when the bit changed. -/
def Obligations.PinModeSetsDirection : Prop :=
  ∀ (s : State) (k : Int) (d : Direction) (want : Bool) (p : Port) (b : BitOffset),
    pinCheck s.variant (.int k) = none → dirBit d = some want → resolve s.variant k = (p, b) →
    ∃ t, exec (.pinMode (.int k) d) s = .next t ∧ (t.dir p).getLsbD b.val = want ∧
      (∀ j : BitOffset, j ≠ b → (t.dir p).getLsbD j.val = (s.dir p).getLsbD j.val) ∧
      Issues s t (if (s.dir p).getLsbD b.val = want then [] else [.write s.settings.address (s.regDir p) (t.dir p)]) ∧
      t.outcomes = s.outcomes ++ [.ok] ∧ LogGains s t []

/-- 41_pin_mode.md: what pinMode leaves unchanged, on every operand: all state but the resolved pin's direction bit, one
transaction more, one outcome more and the log with its counter. -/
def Obligations.PinModeFrame : Prop :=
  ∀ (s t : State) (pin : Pin) (d : Direction), exec (.pinMode pin d) s = .next t →
    t.settings = s.settings ∧ t.variant = s.variant ∧ t.busOpen = s.busOpen ∧ t.nextTag = s.nextTag ∧
    t.refused = s.refused ∧ t.results = s.results ∧ t.delivered = s.delivered ∧ t.turns = s.turns ∧
    (∀ q ∈ s.variant.ports, t.out q = s.out q) ∧
    (∀ q ∈ s.variant.ports, ∀ j : BitOffset,
      (∀ k, pin = .int k → pinCheck s.variant (.int k) = none → resolve s.variant k ≠ (q, j)) →
      (t.dir q).getLsbD j.val = (s.dir q).getLsbD j.val) ∧
    (∃ txns, txns.length ≤ 1 ∧ Issues s t txns) ∧ (∃ o, t.outcomes = s.outcomes ++ [o])

/-- R122: the source's example, on the state just constructed (State.reset is a single-port block at 0x20). -/
def Obligations.PinModeWorkedExample : Prop :=
  mutate 0xFF#8 3 false = (0xF7#8, true) ∧
  ∃ t, exec (.pinMode (.int 3) .output) State.reset = .next t ∧ t.dir .A = 0xF7#8 ∧
    Issues State.reset t [.write 0x20#7 0x00#8 0xF7#8] ∧ t.outcomes = [.ok]

/-! ### digitalWrite (42_digital_write.md) -/

/-- R26: digitalWrite on a valid pin sets its level bit to the mapped level, whatever the pin's direction, and issues the
whole new byte only when the level changes; reset and construction set every level to 0. -/
def Obligations.DigitalWriteSetsLevel : Prop :=
  (∀ (s : State) (k : Int) (val : WriteValue) (lvl : Bool) (p : Port) (b : BitOffset),
    pinCheck s.variant (.int k) = none → levelOf s.settings val = some lvl → resolve s.variant k = (p, b) →
    ∃ t, exec (.digitalWrite (.int k) val) s = .next t ∧ (t.out p).getLsbD b.val = lvl ∧
      (∀ j : BitOffset, j ≠ b → (t.out p).getLsbD j.val = (s.out p).getLsbD j.val) ∧
      Issues s t (if (s.out p).getLsbD b.val = lvl then [] else [.write s.settings.address (s.regOut p) (t.out p)]) ∧
      t.outcomes = s.outcomes ++ [.ok] ∧ LogGains s t []) ∧
  (∀ s : State, ∃ t, exec .reset s = .next t ∧ ∀ p ∈ s.variant.ports, t.out p = 0x00#8) ∧
  (∀ (o : Options) (s : State), construct o = .next s → ∀ p ∈ s.variant.ports, s.out p = 0x00#8)

/-- 42_digital_write.md: what digitalWrite leaves unchanged, on every operand; the direction registers among it. -/
def Obligations.DigitalWriteFrame : Prop :=
  ∀ (s t : State) (pin : Pin) (val : WriteValue), exec (.digitalWrite pin val) s = .next t →
    t.settings = s.settings ∧ t.variant = s.variant ∧ t.busOpen = s.busOpen ∧ t.nextTag = s.nextTag ∧
    t.refused = s.refused ∧ t.results = s.results ∧ t.delivered = s.delivered ∧ t.turns = s.turns ∧
    (∀ q ∈ s.variant.ports, t.dir q = s.dir q) ∧
    (∀ q ∈ s.variant.ports, ∀ j : BitOffset,
      (∀ k, pin = .int k → pinCheck s.variant (.int k) = none → resolve s.variant k ≠ (q, j)) →
      (t.out q).getLsbD j.val = (s.out q).getLsbD j.val) ∧
    (∃ txns, txns.length ≤ 1 ∧ Issues s t txns) ∧ (∃ o, t.outcomes = s.outcomes ++ [o])

/-- R132: the source's example, continuing R122's. -/
def Obligations.DigitalWriteWorkedExample : Prop :=
  levelOf Settings.default .num1 = some true ∧ mutate 0x00#8 3 true = (0x08#8, true) ∧
  ∃ t u, exec (.pinMode (.int 3) .output) State.reset = .next t ∧ exec (.digitalWrite (.int 3) .num1) t = .next u ∧
    u.out .A = 0x08#8 ∧ Issues t u [.write 0x20#7 0x09#8 0x08#8] ∧ u.outcomes = t.outcomes ++ [.ok]

/-! ### digitalRead (43_digital_read.md) -/

/-- 43_digital_read.md's pseudocode of the issue step, and R58 (the tags are decision D13, the outcome D29): on a valid
pin digitalRead completes, issues one read of the port's input register under a fresh tag, and returns the tag. -/
def Obligations.DigitalReadIssuesOneRead : Prop :=
  ∀ (s : State) (k : Int) (p : Port) (b : BitOffset),
    pinCheck s.variant (.int k) = none → resolve s.variant k = (p, b) →
    ∃ t, exec (.digitalRead (.int k)) s = .next t ∧
      Issues s t [.read s.settings.address (s.regIn p) s.nextTag b] ∧ t.nextTag = s.nextTag + 1 ∧
      t.outcomes = s.outcomes ++ [.issued s.nextTag] ∧ LogGains s t []

/-- 43_digital_read.md: digitalRead writes no cache register, and what else it leaves unchanged, on every pin. -/
def Obligations.DigitalReadFrame : Prop :=
  ∀ (s t : State) (pin : Pin), exec (.digitalRead pin) s = .next t →
    t.settings = s.settings ∧ t.cache = s.cache ∧ t.busOpen = s.busOpen ∧ t.refused = s.refused ∧
    t.results = s.results ∧ t.delivered = s.delivered ∧ t.turns = s.turns ∧
    (pinCheck s.variant pin ≠ none → t.nextTag = s.nextTag) ∧
    (∃ txns, txns.length ≤ 1 ∧ Issues s t txns) ∧ (∃ o, t.outcomes = s.outcomes ++ [o])

/-- R143 (derived in the spec): on SINGLE with R33's table, digitalRead(5) as the first read, and its two answers. -/
def Obligations.DigitalReadWorkedExample : Prop :=
  ∀ s : State, s.variant = .single → s.settings.regs = RegTable.default → s.settings.readFollowsPolarity = false →
    s.nextTag = 0 →
    (∃ t, exec (.digitalRead (.int 5)) s = .next t ∧ Issues s t [.read s.settings.address 0x09#8 0 5] ∧
      t.outcomes = s.outcomes ++ [.issued 0]) ∧
    (resolveTransaction (.read s.settings.address 0x09#8 0 5) (.success 0x20#8) s).results =
      s.results ++ [⟨0, .level true⟩] ∧
    (resolveTransaction (.read s.settings.address 0x09#8 0 5) (.success 0xDF#8) s).results =
      s.results ++ [⟨0, .level false⟩]

/-- 43_digital_read.md, corner case (a) (derived in the spec): the result of a read does not depend on the cache. Two
states with the same settings and pending transactions, however their caches differ, deliver the same result. -/
def Obligations.ReadResultIgnoresTheCache : Prop :=
  ∀ (s₁ s₂ t₁ : State) (index : Nat) (a : Answer), s₁.settings = s₂.settings → s₁.pending = s₂.pending →
    transportStep index a s₁ = .next t₁ →
    ∃ t₂ rs, transportStep index a s₂ = .next t₂ ∧ t₁.results = s₁.results ++ rs ∧ t₂.results = s₂.results ++ rs ∧
      t₁.cache = s₁.cache ∧ t₂.cache = s₂.cache

/-! ### reset (44_reset.md) -/

/-- R150 (its order of writes across ports is decision D14, log entry 13): reset completes from every state, sets every register of the
cache, and issues the whole init sequence. -/
def Obligations.ResetRunsInitSequence : Prop :=
  ∀ s : State, ∃ t, exec .reset s = .next t ∧
    (∀ p ∈ s.variant.ports, t.dir p = 0xFF#8 ∧ t.out p = 0x00#8) ∧ Issues s t s.initWrites ∧
    t.outcomes = s.outcomes ++ [.ok] ∧ LogGains s t []

/-- R151 (decision D28): what reset leaves alone: the configuration, busOpen, nextTag, the mark, and every transaction
already pending. -/
def Obligations.ResetFrame : Prop :=
  ∀ s t : State, exec .reset s = .next t →
    t.settings = s.settings ∧ t.variant = s.variant ∧ t.busOpen = s.busOpen ∧ t.nextTag = s.nextTag ∧
    t.refused = s.refused ∧ t.results = s.results ∧ t.delivered = s.delivered ∧ t.turns = s.turns ∧
    s.pending <+: t.pending

/-- R153 (derived in the spec; its order of writes across ports is decision D14, log entry 13): the DUAL example, with R33's
table. -/
def Obligations.ResetWorkedExample : Prop :=
  ∀ s : State, s.cache = .dual ⟨0xFF#8, 0x00#8⟩ ⟨0xFE#8, 0x80#8⟩ → s.settings.regs = RegTable.default →
    ∃ t, exec .reset s = .next t ∧ t.cache = .dual ⟨0xFF#8, 0x00#8⟩ ⟨0xFF#8, 0x00#8⟩ ∧
      Issues s t [.write s.settings.address 0x00#8 0xFF#8, .write s.settings.address 0x01#8 0xFF#8,
        .write s.settings.address 0x14#8 0x00#8, .write s.settings.address 0x15#8 0x00#8] ∧
      t.outcomes = s.outcomes ++ [.ok]

/-! ### All commands -/

/-- R36, R66: every command completes from every state, pending transactions or not, with exactly one outcome, never
Refused, and Issued(tag) exactly for a valid digitalRead (the outcomes are decision D29). -/
def Obligations.EveryCommandCompletesWithOneOutcome : Prop :=
  ∀ (i : Instr) (s : State), ∃ t o, exec i s = .next t ∧ t.outcomes = s.outcomes ++ [o] ∧ o ≠ .refused ∧
    (∀ tag, o = .issued tag ↔ ∃ pin, i = .digitalRead pin ∧ pinCheck s.variant pin = none ∧ tag = s.nextTag)

/-- R161: a command that ends in InvalidArgument has logged it and has no effect but the outcome, and the next command
runs. -/
def Obligations.InvalidArgumentIsANoOp : Prop :=
  ∀ (i : Instr) (s t : State) (c : Cause), exec i s = .next t →
    t.outcomes = s.outcomes ++ [.invalidArgument c] →
    NoEffect s t ∧ LogGains s t [.invalidArgument c] ∧ ∀ j, ∃ u, exec j t = .next u

/-- R163 (decision D6, log entry 12): refusal at decode comes first; then pinMode's direction check and digitalWrite's value check come
before the pin checks, so a bad direction or value is the cause whatever the pin. -/
def Obligations.ErrorPriority : Prop :=
  (∀ (s : State) (w : Word) (rest : List Turn), s.turns = .command w :: rest → (∀ i, decode w ≠ .ok i) →
    ∃ t, step s = .next t ∧ t.outcomes = s.outcomes ++ [.refused]) ∧
  (∀ (s : State) (pin : Pin), ∃ t, exec (.pinMode pin .bad) s = .next t ∧
    t.outcomes = s.outcomes ++ [.invalidArgument .direction]) ∧
  (∀ (s : State) (pin : Pin), ∃ t, exec (.digitalWrite pin .bad) s = .next t ∧
    t.outcomes = s.outcomes ++ [.invalidArgument .value] ∧ NoEffect s t)

/-- R55: a second pinMode or digitalWrite with the same operands issues no write, so the pair issues exactly one where the
first changed the cache; digitalRead changes no cache register; reset issues its full sequence from every state. The
order of that sequence across ports is the spec's own choice (decision D14; log entry 13). -/
def Obligations.RepeatedCommandIssuesNothing : Prop :=
  (∀ (s t u : State) (pin : Pin) (d : Direction), exec (.pinMode pin d) s = .next t → exec (.pinMode pin d) t = .next u →
    Issues t u [] ∧ u.cache = t.cache ∧ (t.cache ≠ s.cache → ∃ x, Issues s u [x])) ∧
  (∀ (s t u : State) (pin : Pin) (val : WriteValue), exec (.digitalWrite pin val) s = .next t →
    exec (.digitalWrite pin val) t = .next u →
    Issues t u [] ∧ u.cache = t.cache ∧ (t.cache ≠ s.cache → ∃ x, Issues s u [x])) ∧
  (∀ (s t : State) (pin : Pin), exec (.digitalRead pin) s = .next t → t.cache = s.cache) ∧
  (∀ s : State, ∃ t, exec .reset s = .next t ∧ Issues s t s.initWrites)

/-- R108 (derived in the spec): a command other than reset changes no lane but the one its operands name, pinMode the
direction lane of its pin, digitalWrite the output lane of its pin, digitalRead none; so it changes at most one lane of
one register of one port. reset sets every lane. -/
def Obligations.OneLanePerCommand : Prop :=
  (∀ (i : Instr) (s t : State), i ≠ .reset → exec i s = .next t → ∀ q ∈ s.variant.ports, ∀ j : BitOffset,
    ((t.dir q).getLsbD j.val ≠ (s.dir q).getLsbD j.val →
      ∃ k d, i = .pinMode (.int k) d ∧ pinCheck s.variant (.int k) = none ∧ resolve s.variant k = (q, j)) ∧
    ((t.out q).getLsbD j.val ≠ (s.out q).getLsbD j.val →
      ∃ k val, i = .digitalWrite (.int k) val ∧ pinCheck s.variant (.int k) = none ∧ resolve s.variant k = (q, j))) ∧
  (∀ s t : State, exec .reset s = .next t → ∀ q ∈ s.variant.ports, ∀ j : BitOffset,
    (t.dir q).getLsbD j.val = true ∧ (t.out q).getLsbD j.val = false)

/-- 20_memory.md sections 1 and 5 (decisions D1, D18): what a command does to the cache, what it issues and what it
returns depend only on the settings, the cache and the next tag, on no pending transaction, completion, log or port. -/
def Obligations.CommandsIgnoreTheTransport : Prop :=
  ∀ (i : Instr) (s₁ s₂ : State), s₁.settings = s₂.settings → s₁.cache = s₂.cache → s₁.nextTag = s₂.nextTag →
    ∃ t₁ t₂ txns o, exec i s₁ = .next t₁ ∧ exec i s₂ = .next t₂ ∧ t₁.cache = t₂.cache ∧ t₁.nextTag = t₂.nextTag ∧
      Issues s₁ t₁ txns ∧ Issues s₂ t₂ txns ∧ t₁.outcomes = s₁.outcomes ++ [o] ∧ t₂.outcomes = s₂.outcomes ++ [o]

/-- R160 (the codes are decision D5): the numeric codes of outcomes and results. -/
def Obligations.OutcomeCodes : Prop :=
  PortOutcome.ok.code = 0 ∧ (∀ tag, (PortOutcome.issued tag).code = 0) ∧
  (PortOutcome.invalidArgument .direction).code = 1 ∧ (PortOutcome.invalidArgument .pinType).code = 2 ∧
  (PortOutcome.invalidArgument .pinRange).code = 3 ∧ (PortOutcome.invalidArgument .value).code = 4 ∧
  PortOutcome.refused.code = 15 ∧ ReadValue.transportFailure.code = some 5 ∧ ∀ r, (ReadValue.level r).code = none

/-! ### The transport (20_memory.md) -/

/-- R57: IssueWrite appends the entry with the next issue index and changes nothing else, and no completion of a write
reaches an outcome or a result. -/
def Obligations.IssueWriteIsFireAndForget : Prop :=
  (∀ (s : State) (reg : RegAddr) (v : Byte),
    s.issueWrite reg v =
      { s with
        pending := s.pending ++ [⟨s.issued.length, .write s.settings.address reg v⟩]
        issued := s.issued ++ [⟨s.issued.length, .write s.settings.address reg v⟩] }) ∧
  (∀ (s t : State) (e : Entry) (c : ChipAddr) (r : RegAddr) (v : Byte) (a : Answer), s.BookKept → e ∈ s.pending →
    e.txn = .write c r v → transportStep e.index a s = .next t → t.outcomes = s.outcomes ∧ t.results = s.results)

/-- R60 (the parameter is decision D10; the names of the refusals are the model's, log entry 16): a transport move is a
step exactly when it names a pending transaction, and with TRANSPORT_IN_ORDER one with the lowest issue index. -/
def Obligations.TransportSelection : Prop :=
  ∀ (s : State) (index : Nat) (a : Answer),
    ((∃ t, transportStep index a s = .next t) ↔ (∃ e ∈ s.pending, e.index = index) ∧
      (s.settings.transportInOrder = true → ∀ x ∈ s.pending, index ≤ x.index)) ∧
    ((¬∃ e ∈ s.pending, e.index = index) → transportStep index a s = .refused .noSuchTransaction) ∧
    ((∃ e ∈ s.pending, e.index = index) → s.settings.transportInOrder = true → (∃ x ∈ s.pending, x.index < index) →
      transportStep index a s = .refused .outOfIssueOrder)

/-- R61 (that success or failure is a draw is decision D11): a successful write is removed and received by the chip; no
block state changes and no port shows it. -/
def Obligations.WriteSuccessIsReceivedByTheChip : Prop :=
  ∀ (s : State) (e : Entry) (rest : List Turn) (c : ChipAddr) (r : RegAddr) (v byte : Byte),
    s.BookKept → e ∈ s.pending → e.txn = .write c r v →
    (s.settings.transportInOrder = true → ∀ x ∈ s.pending, e.index ≤ x.index) →
    s.turns = .complete e.index (.success byte) :: rest →
    ∃ t, step s = .next t ∧ t.delivered = s.delivered ++ [⟨c, r, v⟩] ∧ t.pending = s.pending.erase e ∧
      t.cache = s.cache ∧ t.settings = s.settings ∧ t.busOpen = s.busOpen ∧ t.nextTag = s.nextTag ∧
      t.refused = s.refused ∧ t.outcomes = s.outcomes ∧ t.results = s.results ∧ t.issued = s.issued ∧
      t.turns = rest ∧ LogGains s t []

/-- R62: a failed write is removed and logged; the cache is unchanged and the caller gets nothing. That the record
`delivered` of successful writes does not grow is the model's reading (log entry 9); it says nothing about what the chip
register then holds, which the spec leaves unspecified (U2). -/
def Obligations.WriteFailureIsOnlyLogged : Prop :=
  ∀ (s : State) (e : Entry) (rest : List Turn) (c : ChipAddr) (r : RegAddr) (v : Byte),
    s.BookKept → e ∈ s.pending → e.txn = .write c r v →
    (s.settings.transportInOrder = true → ∀ x ∈ s.pending, e.index ≤ x.index) →
    s.turns = .complete e.index .failure :: rest →
    ∃ t, step s = .next t ∧ LogGains s t [.writeFailed] ∧ t.pending = s.pending.erase e ∧
      t.delivered = s.delivered ∧ t.cache = s.cache ∧ t.settings = s.settings ∧ t.busOpen = s.busOpen ∧
      t.nextTag = s.nextTag ∧ t.refused = s.refused ∧ t.outcomes = s.outcomes ∧ t.results = s.results ∧
      t.issued = s.issued ∧ t.turns = rest

/-- R63 with R141 (whose polarity parameter is decision D9): a successful read, whatever its byte, delivers the pin's bit
under its tag, inverted only when READ_FOLLOWS_POLARITY and REVERSE both hold; the cache is unchanged. -/
def Obligations.ReadSuccessDeliversTheBit : Prop :=
  ∀ (s : State) (e : Entry) (rest : List Turn) (c : ChipAddr) (r : RegAddr) (tag : Nat) (b : BitOffset) (byte : Byte),
    s.BookKept → e ∈ s.pending → e.txn = .read c r tag b →
    (s.settings.transportInOrder = true → ∀ x ∈ s.pending, e.index ≤ x.index) →
    s.turns = .complete e.index (.success byte) :: rest →
    ∃ t, step s = .next t ∧
      t.results = s.results ++
        [⟨tag, .level ((byte.getLsbD b.val) ^^ (s.settings.readFollowsPolarity && s.settings.reverse))⟩] ∧
      t.pending = s.pending.erase e ∧ t.cache = s.cache ∧ t.settings = s.settings ∧ t.busOpen = s.busOpen ∧
      t.nextTag = s.nextTag ∧ t.refused = s.refused ∧ t.outcomes = s.outcomes ∧ t.delivered = s.delivered ∧
      t.issued = s.issued ∧ t.turns = rest ∧ LogGains s t []

/-- R64: a failed read delivers TransportFailure under its tag; it is not retried and not cached. -/
def Obligations.ReadFailureReachesTheCaller : Prop :=
  ∀ (s : State) (e : Entry) (rest : List Turn) (c : ChipAddr) (r : RegAddr) (tag : Nat) (b : BitOffset),
    s.BookKept → e ∈ s.pending → e.txn = .read c r tag b →
    (s.settings.transportInOrder = true → ∀ x ∈ s.pending, e.index ≤ x.index) →
    s.turns = .complete e.index .failure :: rest →
    ∃ t, step s = .next t ∧ t.results = s.results ++ [⟨tag, .transportFailure⟩] ∧ t.pending = s.pending.erase e ∧
      t.cache = s.cache ∧ t.settings = s.settings ∧ t.busOpen = s.busOpen ∧ t.nextTag = s.nextTag ∧
      t.refused = s.refused ∧ t.outcomes = s.outcomes ∧ t.delivered = s.delivered ∧ t.issued = s.issued ∧
      t.turns = rest ∧ LogGains s t []

/-- 20_memory.md section 5, case (d): without TRANSPORT_IN_ORDER, of two pending writes to one register the older may be
performed last, and then the chip last received the older byte while the cache is as it was. -/
def Obligations.UnorderedTransportCanClobber : Prop :=
  ∀ (s : State) (x y : Entry) (rest : List Turn) (c d : ChipAddr) (r : RegAddr) (v w byte₁ byte₂ : Byte),
    s.BookKept → s.settings.transportInOrder = false → x ∈ s.pending → y ∈ s.pending → x.index < y.index →
    x.txn = .write c r v → y.txn = .write d r w →
    s.turns = .complete y.index (.success byte₁) :: .complete x.index (.success byte₂) :: rest →
    ∃ u t, step s = .next u ∧ step u = .next t ∧ u.lastReceived r = some w ∧ t.lastReceived r = some v ∧
      t.cache = s.cache

/-! ### Invariants of every step -/

/-- R24 (derived in the spec for the model): every step keeps each cache register equal to the last write issued to its
chip register, over every table whose written registers are distinct. -/
def Obligations.CacheEqualsLastIssuedWrite : Prop :=
  ∀ s t : State, s.WriteAddrsDistinct → s.CacheTracksBus → step s = .next t →
    t.WriteAddrsDistinct ∧ t.CacheTracksBus

/-- 10_state.md section 3, 20_memory.md section 3 (decisions D12, D13; derived order): every step keeps the books: issue
indices count the issues, tags count the reads, and what is pending is what was issued, in order. -/
def Obligations.StepKeepsTheBooks : Prop :=
  ∀ s t : State, s.BookKept → step s = .next t → t.BookKept

/-- R56 (derived in the spec): every step keeps that only the chip at ADDRESS is reached, writes go to REG_DIR and
REG_OUT, reads to REG_IN, and the chip receives only what was issued. -/
def Obligations.OnlyTheMappedRegistersAreReached : Prop :=
  ∀ s t : State, s.BookKept → s.WellAddressed → step s = .next t → t.WellAddressed

/-- 20_memory.md section 5, case (c) (derived in the spec): with TRANSPORT_IN_ORDER, a step that does not fail a write to
a register keeps that what the chip received there and what is pending is everything issued there, in issue order. -/
def Obligations.InOrderTransportKeepsIssueOrder : Prop :=
  ∀ (s t : State) (reg : RegAddr), s.BookKept → s.settings.transportInOrder = true → s.Settled reg →
    ¬s.NextFailsWriteTo reg → step s = .next t → t.Settled reg

/-- 20_memory.md section 5, case (c) (derived in the spec): then, once no write to a cache register's chip register is
pending, the last byte the chip received there is the byte the cache holds. -/
def Obligations.DrainedChipAgreesWithCache : Prop :=
  ∀ (s : State) (p : Port), s.CacheTracksBus → p ∈ s.variant.ports →
    (s.Settled (s.regDir p) → writesTo (s.regDir p) s.pending = [] → s.lastReceived (s.regDir p) = some (s.dir p)) ∧
    (s.Settled (s.regOut p) → writesTo (s.regOut p) s.pending = [] → s.lastReceived (s.regOut p) = some (s.out p))

/-- R27, R29: the configuration, the variant and the open bus are fixed; no step writes them. -/
def Obligations.ConfigurationIsReadOnly : Prop :=
  ∀ s t : State, step s = .next t → t.settings = s.settings ∧ t.variant = s.variant ∧ t.busOpen = s.busOpen

/-- R23, R51: a step that changes a direction register is a pinMode or a reset, one that changes an output register is a
digitalWrite or a reset; no transport step and no refused word changes the cache. -/
def Obligations.OnlyTheNamedCommandsWriteTheCache : Prop :=
  ∀ (s t : State) (p : Port), step s = .next t →
    (t.dir p ≠ s.dir p → ∃ w rest i, s.turns = .command w :: rest ∧ decode w = .ok i ∧
      (i.operation = .pinMode ∨ i.operation = .reset)) ∧
    (t.out p ≠ s.out p → ∃ w rest i, s.turns = .command w :: rest ∧ decode w = .ok i ∧
      (i.operation = .digitalWrite ∨ i.operation = .reset))

/-- R31: the log is append-only. The tag counter does not fall (R32, R58; decision D13). Only a transport step removes a
pending transaction (no cancellation, decision D28). That outcomes, results, issued and delivered are append-only records
is the model's choice (log entry 8). -/
def Obligations.HistoriesOnlyGrow : Prop :=
  ∀ s t : State, step s = .next t →
    s.log <+: t.log ∧ s.outcomes <+: t.outcomes ∧ s.results <+: t.results ∧ s.issued <+: t.issued ∧
    s.delivered <+: t.delivered ∧ s.nextTag ≤ t.nextTag ∧
    (∀ e ∈ s.pending, e ∉ t.pending → ∃ a rest, s.turns = .complete e.index a :: rest)

/-- R172 (derived in the spec from "no behavioral effect"; the free values are log entry 7): two states that differ only
in DEBUG, the log and the free values drawn take steps that agree in everything else, stops included. -/
def Obligations.DebugHasNoEffect : Prop :=
  ∀ s t : State, s.withoutDiagnostics = t.withoutDiagnostics → AgreeUpToDiagnostics (step s) (step t)

/-! ### Steps, the end of a run, construction -/

/-- R50 (D1) and the model's placing of a command (log entries 1, 2): a step whose next move is a command word that
decodes is that command on the state without the move; `withFetchWord` places one such word. -/
def Obligations.StepRunsTheDecodedCommand : Prop :=
  (∀ (s : State) (w : Word) (rest : List Turn) (i : Instr), s.turns = .command w :: rest → decode w = .ok i →
    step s = exec i { s with turns := rest }) ∧
  (∀ (s : State) (w : Word) (i : Instr), decode w = .ok i → step (s.withFetchWord 32 w.toNat) = exec i s)

/-- R205 (D11; that the end is a fault named runEnded is log entry 3): a run has ended exactly when no move is left, and
no command word stops a run. -/
def Obligations.RunEndsWhenNoMoveIsLeft : Prop :=
  (∀ s : State, step s = .fault .runEnded ↔ s.turns = []) ∧
  (∀ (s : State) (w : Word) (rest : List Turn), s.turns = .command w :: rest →
    ∃ t o, step s = .next t ∧ t.turns = rest ∧ t.outcomes = s.outcomes ++ [o])

/-- R190 and the construction column of R39: construction with legal options and a bus that opens gives the state the
rules list. Its checks are decision D22 (log entry 14), and the order of the init writes across ports is decision D14 (log
entry 13); the empty ports and records are the model's (log entry 8). -/
def Obligations.ConstructionState : Prop :=
  ∀ (o : Options) (adr bus : Int) (rev dbg : Bool), o.address = .int adr → 0 ≤ adr → adr ≤ 127 →
    (o.bus = .int bus ∨ (o.bus = .absent ∧ bus = 1)) → (o.reverse = .bool rev ∨ (o.reverse = .absent ∧ rev = false)) →
    (o.debug = .bool dbg ∨ (o.debug = .absent ∧ dbg = false)) → o.busOpens = true →
    ∃ s, construct o = .next s ∧ (s.settings.address.toNat : Int) = adr ∧ s.settings.bus = bus ∧
      s.settings.reverse = rev ∧ s.settings.debug = dbg ∧
      s.settings.numericFollowsPolarity = o.numericFollowsPolarity ∧
      s.settings.readFollowsPolarity = o.readFollowsPolarity ∧ s.settings.transportInOrder = o.transportInOrder ∧
      s.settings.regs = o.regs ∧ s.variant = o.variant ∧ s.busOpen = true ∧
      (∀ p ∈ s.variant.ports, s.dir p = 0xFF#8 ∧ s.out p = 0x00#8) ∧ s.pending = numbered 0 s.initWrites ∧
      s.issued = numbered 0 s.initWrites ∧ s.nextTag = 0 ∧ s.refused = false ∧ s.outcomes = [] ∧ s.results = [] ∧
      s.delivered = [] ∧ (∀ e ∈ s.log, e.kind = .debug) ∧ (dbg = false → s.log = [])

/-- R190's requirements (decision D22): illegal options, or a bus that does not open, give no instance. -/
def Obligations.IllegalOptionsGiveNoInstance : Prop :=
  ∀ o : Options, (∃ s, construct o = .next s) →
    (∃ adr : Int, o.address = .int adr ∧ 0 ≤ adr ∧ adr ≤ 127) ∧ (o.bus = .absent ∨ ∃ k, o.bus = .int k) ∧
    (o.reverse = .absent ∨ ∃ b, o.reverse = .bool b) ∧ (o.debug = .absent ∨ ∃ b, o.debug = .bool b) ∧
    o.busOpens = true

/-- R24, R32, R56, R67 (derived): every construction establishes the invariants the steps keep. -/
def Obligations.ConstructionEstablishesTheInvariants : Prop :=
  ∀ (o : Options) (s : State), construct o = .next s →
    s.BookKept ∧ s.WellAddressed ∧ (∀ reg, s.Settled reg) ∧ (s.WriteAddrsDistinct → s.CacheTracksBus)

/-- The state after reset is a construction (SINGLE at 0x20, every other option absent: the model's choice, log entries 4
and 5), and the invariants hold at it. -/
def Obligations.ResetStateIsAConstruction : Prop :=
  construct Options.default = .next State.reset ∧ State.reset.WriteAddrsDistinct ∧ State.reset.CacheTracksBus ∧
    State.reset.BookKept ∧ State.reset.WellAddressed ∧ ∀ reg, State.reset.Settled reg
end

