-- ==== Sys2Proof/Laws/Decode.lean ====
section
/-! SUPPORT. The fields of a word the encoder makes, and the operand codes read back. -/

namespace Sys2Proof

section
variable (op : BitVec 4) (pk : BitVec 2) (arg : BitVec 4) (pin : BitVec 16)

/-- R81: each bit of a made word is a bit of the field it lies in. -/
theorem makeWord_getLsbD (i : Nat) :
    (makeWord op pk arg pin).getLsbD i =
      if i < 16 then pin.getLsbD i
      else if i < 20 then arg.getLsbD (i - 16)
      else if i < 22 then false
      else if i < 24 then pk.getLsbD (i - 22)
      else if i < 28 then false
      else op.getLsbD (i - 28) := by
  change BitVec.getLsbD (w := 4 + 4 + 2 + 2 + 4 + 16) (op ++ 0#4 ++ pk ++ 0#2 ++ arg ++ pin) i = _
  simp only [BitVec.getLsbD_append, BitVec.getLsbD_zero]
  split_ifs <;> first | rfl | omega

@[simp] theorem opField_makeWord : opField (makeWord op pk arg pin) = op := by
  apply BitVec.eq_of_getLsbD_eq
  intro i hi
  unfold opField
  rw [BitVec.getLsbD_extractLsb', makeWord_getLsbD]
  interval_cases i <;> simp

@[simp] theorem z1Field_makeWord : z1Field (makeWord op pk arg pin) = 0#4 := by
  apply BitVec.eq_of_getLsbD_eq
  intro i hi
  unfold z1Field
  rw [BitVec.getLsbD_extractLsb', makeWord_getLsbD]
  interval_cases i <;> simp

@[simp] theorem pkField_makeWord : pkField (makeWord op pk arg pin) = pk := by
  apply BitVec.eq_of_getLsbD_eq
  intro i hi
  unfold pkField
  rw [BitVec.getLsbD_extractLsb', makeWord_getLsbD]
  interval_cases i <;> simp

@[simp] theorem z2Field_makeWord : z2Field (makeWord op pk arg pin) = 0#2 := by
  apply BitVec.eq_of_getLsbD_eq
  intro i hi
  unfold z2Field
  rw [BitVec.getLsbD_extractLsb', makeWord_getLsbD]
  interval_cases i <;> simp

@[simp] theorem argField_makeWord : argField (makeWord op pk arg pin) = arg := by
  apply BitVec.eq_of_getLsbD_eq
  intro i hi
  unfold argField
  rw [BitVec.getLsbD_extractLsb', makeWord_getLsbD]
  interval_cases i <;> simp

@[simp] theorem pinField_makeWord : pinField (makeWord op pk arg pin) = pin := by
  apply BitVec.eq_of_getLsbD_eq
  intro i hi
  unfold pinField
  rw [BitVec.getLsbD_extractLsb', makeWord_getLsbD]
  interval_cases i <;> simp

end

@[simp] theorem dirOf_code (d : Direction) : dirOf d.code = d := by cases d <;> rfl
@[simp] theorem valOf_code (v : WriteValue) : valOf v.code = v := by cases v <;> rfl

end Sys2Proof
end

