-- ==== Sys2Proof/Laws/State.lean ====
section
/-! SUPPORT. One lemma per field per update of the state, and the accessors that read the cache or the configuration
(variant, dir, out, regRow) under each update that leaves both alone. -/

namespace Sys2Proof.Machine

open Sys2Proof

/-! ### setDir -/

@[simp] theorem State.setDir_settings (s : State) (p : Port) (v : Byte) : (s.setDir p v).settings = s.settings := rfl
@[simp] theorem State.setDir_cache (s : State) (p : Port) (v : Byte) : (s.setDir p v).cache = s.cache.setPort p { s.cache.port p with dir := v } := rfl
@[simp] theorem State.setDir_busOpen (s : State) (p : Port) (v : Byte) : (s.setDir p v).busOpen = s.busOpen := rfl
@[simp] theorem State.setDir_pending (s : State) (p : Port) (v : Byte) : (s.setDir p v).pending = s.pending := rfl
@[simp] theorem State.setDir_nextTag (s : State) (p : Port) (v : Byte) : (s.setDir p v).nextTag = s.nextTag := rfl
@[simp] theorem State.setDir_log (s : State) (p : Port) (v : Byte) : (s.setDir p v).log = s.log := rfl
@[simp] theorem State.setDir_refused (s : State) (p : Port) (v : Byte) : (s.setDir p v).refused = s.refused := rfl
@[simp] theorem State.setDir_outcomes (s : State) (p : Port) (v : Byte) : (s.setDir p v).outcomes = s.outcomes := rfl
@[simp] theorem State.setDir_results (s : State) (p : Port) (v : Byte) : (s.setDir p v).results = s.results := rfl
@[simp] theorem State.setDir_issued (s : State) (p : Port) (v : Byte) : (s.setDir p v).issued = s.issued := rfl
@[simp] theorem State.setDir_delivered (s : State) (p : Port) (v : Byte) : (s.setDir p v).delivered = s.delivered := rfl
@[simp] theorem State.setDir_turns (s : State) (p : Port) (v : Byte) : (s.setDir p v).turns = s.turns := rfl
@[simp] theorem State.setDir_draws (s : State) (p : Port) (v : Byte) : (s.setDir p v).draws = s.draws := rfl

/-! ### setOut -/

@[simp] theorem State.setOut_settings (s : State) (p : Port) (v : Byte) : (s.setOut p v).settings = s.settings := rfl
@[simp] theorem State.setOut_cache (s : State) (p : Port) (v : Byte) : (s.setOut p v).cache = s.cache.setPort p { s.cache.port p with out := v } := rfl
@[simp] theorem State.setOut_busOpen (s : State) (p : Port) (v : Byte) : (s.setOut p v).busOpen = s.busOpen := rfl
@[simp] theorem State.setOut_pending (s : State) (p : Port) (v : Byte) : (s.setOut p v).pending = s.pending := rfl
@[simp] theorem State.setOut_nextTag (s : State) (p : Port) (v : Byte) : (s.setOut p v).nextTag = s.nextTag := rfl
@[simp] theorem State.setOut_log (s : State) (p : Port) (v : Byte) : (s.setOut p v).log = s.log := rfl
@[simp] theorem State.setOut_refused (s : State) (p : Port) (v : Byte) : (s.setOut p v).refused = s.refused := rfl
@[simp] theorem State.setOut_outcomes (s : State) (p : Port) (v : Byte) : (s.setOut p v).outcomes = s.outcomes := rfl
@[simp] theorem State.setOut_results (s : State) (p : Port) (v : Byte) : (s.setOut p v).results = s.results := rfl
@[simp] theorem State.setOut_issued (s : State) (p : Port) (v : Byte) : (s.setOut p v).issued = s.issued := rfl
@[simp] theorem State.setOut_delivered (s : State) (p : Port) (v : Byte) : (s.setOut p v).delivered = s.delivered := rfl
@[simp] theorem State.setOut_turns (s : State) (p : Port) (v : Byte) : (s.setOut p v).turns = s.turns := rfl
@[simp] theorem State.setOut_draws (s : State) (p : Port) (v : Byte) : (s.setOut p v).draws = s.draws := rfl

/-! ### issue -/

@[simp] theorem State.issue_settings (s : State) (x : Transaction) : (s.issue x).settings = s.settings := rfl
@[simp] theorem State.issue_cache (s : State) (x : Transaction) : (s.issue x).cache = s.cache := rfl
@[simp] theorem State.issue_busOpen (s : State) (x : Transaction) : (s.issue x).busOpen = s.busOpen := rfl
@[simp] theorem State.issue_pending (s : State) (x : Transaction) : (s.issue x).pending = s.pending ++ [⟨s.issued.length, x⟩] := rfl
@[simp] theorem State.issue_nextTag (s : State) (x : Transaction) : (s.issue x).nextTag = s.nextTag := rfl
@[simp] theorem State.issue_log (s : State) (x : Transaction) : (s.issue x).log = s.log := rfl
@[simp] theorem State.issue_refused (s : State) (x : Transaction) : (s.issue x).refused = s.refused := rfl
@[simp] theorem State.issue_outcomes (s : State) (x : Transaction) : (s.issue x).outcomes = s.outcomes := rfl
@[simp] theorem State.issue_results (s : State) (x : Transaction) : (s.issue x).results = s.results := rfl
@[simp] theorem State.issue_issued (s : State) (x : Transaction) : (s.issue x).issued = s.issued ++ [⟨s.issued.length, x⟩] := rfl
@[simp] theorem State.issue_delivered (s : State) (x : Transaction) : (s.issue x).delivered = s.delivered := rfl
@[simp] theorem State.issue_turns (s : State) (x : Transaction) : (s.issue x).turns = s.turns := rfl
@[simp] theorem State.issue_draws (s : State) (x : Transaction) : (s.issue x).draws = s.draws := rfl
@[simp] theorem State.issue_variant (s : State) (x : Transaction) : (s.issue x).variant = s.variant := rfl
@[simp] theorem State.issue_dir (s : State) (x : Transaction) (q : Port) : (s.issue x).dir q = s.dir q := rfl
@[simp] theorem State.issue_out (s : State) (x : Transaction) (q : Port) : (s.issue x).out q = s.out q := rfl
@[simp] theorem State.issue_regRow (s : State) (x : Transaction) (q : Port) : (s.issue x).regRow q = s.regRow q := rfl

/-! ### issueWrite -/

@[simp] theorem State.issueWrite_settings (s : State) (r : RegAddr) (v : Byte) : (s.issueWrite r v).settings = s.settings := rfl
@[simp] theorem State.issueWrite_cache (s : State) (r : RegAddr) (v : Byte) : (s.issueWrite r v).cache = s.cache := rfl
@[simp] theorem State.issueWrite_busOpen (s : State) (r : RegAddr) (v : Byte) : (s.issueWrite r v).busOpen = s.busOpen := rfl
@[simp] theorem State.issueWrite_pending (s : State) (r : RegAddr) (v : Byte) : (s.issueWrite r v).pending = s.pending ++ [⟨s.issued.length, .write s.settings.address r v⟩] := rfl
@[simp] theorem State.issueWrite_nextTag (s : State) (r : RegAddr) (v : Byte) : (s.issueWrite r v).nextTag = s.nextTag := rfl
@[simp] theorem State.issueWrite_log (s : State) (r : RegAddr) (v : Byte) : (s.issueWrite r v).log = s.log := rfl
@[simp] theorem State.issueWrite_refused (s : State) (r : RegAddr) (v : Byte) : (s.issueWrite r v).refused = s.refused := rfl
@[simp] theorem State.issueWrite_outcomes (s : State) (r : RegAddr) (v : Byte) : (s.issueWrite r v).outcomes = s.outcomes := rfl
@[simp] theorem State.issueWrite_results (s : State) (r : RegAddr) (v : Byte) : (s.issueWrite r v).results = s.results := rfl
@[simp] theorem State.issueWrite_issued (s : State) (r : RegAddr) (v : Byte) : (s.issueWrite r v).issued = s.issued ++ [⟨s.issued.length, .write s.settings.address r v⟩] := rfl
@[simp] theorem State.issueWrite_delivered (s : State) (r : RegAddr) (v : Byte) : (s.issueWrite r v).delivered = s.delivered := rfl
@[simp] theorem State.issueWrite_turns (s : State) (r : RegAddr) (v : Byte) : (s.issueWrite r v).turns = s.turns := rfl
@[simp] theorem State.issueWrite_draws (s : State) (r : RegAddr) (v : Byte) : (s.issueWrite r v).draws = s.draws := rfl
@[simp] theorem State.issueWrite_variant (s : State) (r : RegAddr) (v : Byte) : (s.issueWrite r v).variant = s.variant := rfl
@[simp] theorem State.issueWrite_dir (s : State) (r : RegAddr) (v : Byte) (q : Port) : (s.issueWrite r v).dir q = s.dir q := rfl
@[simp] theorem State.issueWrite_out (s : State) (r : RegAddr) (v : Byte) (q : Port) : (s.issueWrite r v).out q = s.out q := rfl
@[simp] theorem State.issueWrite_regRow (s : State) (r : RegAddr) (v : Byte) (q : Port) : (s.issueWrite r v).regRow q = s.regRow q := rfl

/-! ### issueRead -/

@[simp] theorem State.issueRead_settings (s : State) (r : RegAddr) (b : BitOffset) : (s.issueRead r b).settings = s.settings := rfl
@[simp] theorem State.issueRead_cache (s : State) (r : RegAddr) (b : BitOffset) : (s.issueRead r b).cache = s.cache := rfl
@[simp] theorem State.issueRead_busOpen (s : State) (r : RegAddr) (b : BitOffset) : (s.issueRead r b).busOpen = s.busOpen := rfl
@[simp] theorem State.issueRead_pending (s : State) (r : RegAddr) (b : BitOffset) : (s.issueRead r b).pending = s.pending ++ [⟨s.issued.length, .read s.settings.address r s.nextTag b⟩] := rfl
@[simp] theorem State.issueRead_nextTag (s : State) (r : RegAddr) (b : BitOffset) : (s.issueRead r b).nextTag = s.nextTag + 1 := rfl
@[simp] theorem State.issueRead_log (s : State) (r : RegAddr) (b : BitOffset) : (s.issueRead r b).log = s.log := rfl
@[simp] theorem State.issueRead_refused (s : State) (r : RegAddr) (b : BitOffset) : (s.issueRead r b).refused = s.refused := rfl
@[simp] theorem State.issueRead_outcomes (s : State) (r : RegAddr) (b : BitOffset) : (s.issueRead r b).outcomes = s.outcomes := rfl
@[simp] theorem State.issueRead_results (s : State) (r : RegAddr) (b : BitOffset) : (s.issueRead r b).results = s.results := rfl
@[simp] theorem State.issueRead_issued (s : State) (r : RegAddr) (b : BitOffset) : (s.issueRead r b).issued = s.issued ++ [⟨s.issued.length, .read s.settings.address r s.nextTag b⟩] := rfl
@[simp] theorem State.issueRead_delivered (s : State) (r : RegAddr) (b : BitOffset) : (s.issueRead r b).delivered = s.delivered := rfl
@[simp] theorem State.issueRead_turns (s : State) (r : RegAddr) (b : BitOffset) : (s.issueRead r b).turns = s.turns := rfl
@[simp] theorem State.issueRead_draws (s : State) (r : RegAddr) (b : BitOffset) : (s.issueRead r b).draws = s.draws := rfl
@[simp] theorem State.issueRead_variant (s : State) (r : RegAddr) (b : BitOffset) : (s.issueRead r b).variant = s.variant := rfl
@[simp] theorem State.issueRead_dir (s : State) (r : RegAddr) (b : BitOffset) (q : Port) : (s.issueRead r b).dir q = s.dir q := rfl
@[simp] theorem State.issueRead_out (s : State) (r : RegAddr) (b : BitOffset) (q : Port) : (s.issueRead r b).out q = s.out q := rfl
@[simp] theorem State.issueRead_regRow (s : State) (r : RegAddr) (b : BitOffset) (q : Port) : (s.issueRead r b).regRow q = s.regRow q := rfl

/-! ### emit -/

@[simp] theorem State.emit_settings (s : State) (o : PortOutcome) : (s.emit o).settings = s.settings := rfl
@[simp] theorem State.emit_cache (s : State) (o : PortOutcome) : (s.emit o).cache = s.cache := rfl
@[simp] theorem State.emit_busOpen (s : State) (o : PortOutcome) : (s.emit o).busOpen = s.busOpen := rfl
@[simp] theorem State.emit_pending (s : State) (o : PortOutcome) : (s.emit o).pending = s.pending := rfl
@[simp] theorem State.emit_nextTag (s : State) (o : PortOutcome) : (s.emit o).nextTag = s.nextTag := rfl
@[simp] theorem State.emit_log (s : State) (o : PortOutcome) : (s.emit o).log = s.log := rfl
@[simp] theorem State.emit_refused (s : State) (o : PortOutcome) : (s.emit o).refused = s.refused := rfl
@[simp] theorem State.emit_outcomes (s : State) (o : PortOutcome) : (s.emit o).outcomes = s.outcomes ++ [o] := rfl
@[simp] theorem State.emit_results (s : State) (o : PortOutcome) : (s.emit o).results = s.results := rfl
@[simp] theorem State.emit_issued (s : State) (o : PortOutcome) : (s.emit o).issued = s.issued := rfl
@[simp] theorem State.emit_delivered (s : State) (o : PortOutcome) : (s.emit o).delivered = s.delivered := rfl
@[simp] theorem State.emit_turns (s : State) (o : PortOutcome) : (s.emit o).turns = s.turns := rfl
@[simp] theorem State.emit_draws (s : State) (o : PortOutcome) : (s.emit o).draws = s.draws := rfl
@[simp] theorem State.emit_variant (s : State) (o : PortOutcome) : (s.emit o).variant = s.variant := rfl
@[simp] theorem State.emit_dir (s : State) (o : PortOutcome) (q : Port) : (s.emit o).dir q = s.dir q := rfl
@[simp] theorem State.emit_out (s : State) (o : PortOutcome) (q : Port) : (s.emit o).out q = s.out q := rfl
@[simp] theorem State.emit_regRow (s : State) (o : PortOutcome) (q : Port) : (s.emit o).regRow q = s.regRow q := rfl

/-! ### deliver -/

@[simp] theorem State.deliver_settings (s : State) (r : ReadResult) : (s.deliver r).settings = s.settings := rfl
@[simp] theorem State.deliver_cache (s : State) (r : ReadResult) : (s.deliver r).cache = s.cache := rfl
@[simp] theorem State.deliver_busOpen (s : State) (r : ReadResult) : (s.deliver r).busOpen = s.busOpen := rfl
@[simp] theorem State.deliver_pending (s : State) (r : ReadResult) : (s.deliver r).pending = s.pending := rfl
@[simp] theorem State.deliver_nextTag (s : State) (r : ReadResult) : (s.deliver r).nextTag = s.nextTag := rfl
@[simp] theorem State.deliver_log (s : State) (r : ReadResult) : (s.deliver r).log = s.log := rfl
@[simp] theorem State.deliver_refused (s : State) (r : ReadResult) : (s.deliver r).refused = s.refused := rfl
@[simp] theorem State.deliver_outcomes (s : State) (r : ReadResult) : (s.deliver r).outcomes = s.outcomes := rfl
@[simp] theorem State.deliver_results (s : State) (r : ReadResult) : (s.deliver r).results = s.results ++ [r] := rfl
@[simp] theorem State.deliver_issued (s : State) (r : ReadResult) : (s.deliver r).issued = s.issued := rfl
@[simp] theorem State.deliver_delivered (s : State) (r : ReadResult) : (s.deliver r).delivered = s.delivered := rfl
@[simp] theorem State.deliver_turns (s : State) (r : ReadResult) : (s.deliver r).turns = s.turns := rfl
@[simp] theorem State.deliver_draws (s : State) (r : ReadResult) : (s.deliver r).draws = s.draws := rfl
@[simp] theorem State.deliver_variant (s : State) (r : ReadResult) : (s.deliver r).variant = s.variant := rfl
@[simp] theorem State.deliver_dir (s : State) (r : ReadResult) (q : Port) : (s.deliver r).dir q = s.dir q := rfl
@[simp] theorem State.deliver_out (s : State) (r : ReadResult) (q : Port) : (s.deliver r).out q = s.out q := rfl
@[simp] theorem State.deliver_regRow (s : State) (r : ReadResult) (q : Port) : (s.deliver r).regRow q = s.regRow q := rfl

/-! ### logEvent -/

@[simp] theorem State.logEvent_settings (s : State) (k : LogKind) : (s.logEvent k).settings = s.settings := rfl
@[simp] theorem State.logEvent_cache (s : State) (k : LogKind) : (s.logEvent k).cache = s.cache := rfl
@[simp] theorem State.logEvent_busOpen (s : State) (k : LogKind) : (s.logEvent k).busOpen = s.busOpen := rfl
@[simp] theorem State.logEvent_pending (s : State) (k : LogKind) : (s.logEvent k).pending = s.pending := rfl
@[simp] theorem State.logEvent_nextTag (s : State) (k : LogKind) : (s.logEvent k).nextTag = s.nextTag := rfl
@[simp] theorem State.logEvent_log (s : State) (k : LogKind) : (s.logEvent k).log = s.log ++ [⟨k, Config.eventContent s.draws⟩] := rfl
@[simp] theorem State.logEvent_refused (s : State) (k : LogKind) : (s.logEvent k).refused = s.refused := rfl
@[simp] theorem State.logEvent_outcomes (s : State) (k : LogKind) : (s.logEvent k).outcomes = s.outcomes := rfl
@[simp] theorem State.logEvent_results (s : State) (k : LogKind) : (s.logEvent k).results = s.results := rfl
@[simp] theorem State.logEvent_issued (s : State) (k : LogKind) : (s.logEvent k).issued = s.issued := rfl
@[simp] theorem State.logEvent_delivered (s : State) (k : LogKind) : (s.logEvent k).delivered = s.delivered := rfl
@[simp] theorem State.logEvent_turns (s : State) (k : LogKind) : (s.logEvent k).turns = s.turns := rfl
@[simp] theorem State.logEvent_draws (s : State) (k : LogKind) : (s.logEvent k).draws = s.draws + 1 := rfl
@[simp] theorem State.logEvent_variant (s : State) (k : LogKind) : (s.logEvent k).variant = s.variant := rfl
@[simp] theorem State.logEvent_dir (s : State) (k : LogKind) (q : Port) : (s.logEvent k).dir q = s.dir q := rfl
@[simp] theorem State.logEvent_out (s : State) (k : LogKind) (q : Port) : (s.logEvent k).out q = s.out q := rfl
@[simp] theorem State.logEvent_regRow (s : State) (k : LogKind) (q : Port) : (s.logEvent k).regRow q = s.regRow q := rfl

/-! ### raise -/

@[simp] theorem State.raise_settings (s : State) (c : Cause) : (s.raise c).settings = s.settings := rfl
@[simp] theorem State.raise_cache (s : State) (c : Cause) : (s.raise c).cache = s.cache := rfl
@[simp] theorem State.raise_busOpen (s : State) (c : Cause) : (s.raise c).busOpen = s.busOpen := rfl
@[simp] theorem State.raise_pending (s : State) (c : Cause) : (s.raise c).pending = s.pending := rfl
@[simp] theorem State.raise_nextTag (s : State) (c : Cause) : (s.raise c).nextTag = s.nextTag := rfl
@[simp] theorem State.raise_log (s : State) (c : Cause) : (s.raise c).log = s.log ++ [⟨.invalidArgument c, Config.eventContent s.draws⟩] := rfl
@[simp] theorem State.raise_refused (s : State) (c : Cause) : (s.raise c).refused = s.refused := rfl
@[simp] theorem State.raise_outcomes (s : State) (c : Cause) : (s.raise c).outcomes = s.outcomes ++ [.invalidArgument c] := rfl
@[simp] theorem State.raise_results (s : State) (c : Cause) : (s.raise c).results = s.results := rfl
@[simp] theorem State.raise_issued (s : State) (c : Cause) : (s.raise c).issued = s.issued := rfl
@[simp] theorem State.raise_delivered (s : State) (c : Cause) : (s.raise c).delivered = s.delivered := rfl
@[simp] theorem State.raise_turns (s : State) (c : Cause) : (s.raise c).turns = s.turns := rfl
@[simp] theorem State.raise_draws (s : State) (c : Cause) : (s.raise c).draws = s.draws + 1 := rfl
@[simp] theorem State.raise_variant (s : State) (c : Cause) : (s.raise c).variant = s.variant := rfl
@[simp] theorem State.raise_dir (s : State) (c : Cause) (q : Port) : (s.raise c).dir q = s.dir q := rfl
@[simp] theorem State.raise_out (s : State) (c : Cause) (q : Port) : (s.raise c).out q = s.out q := rfl
@[simp] theorem State.raise_regRow (s : State) (c : Cause) (q : Port) : (s.raise c).regRow q = s.regRow q := rfl

/-! ### removePending -/

@[simp] theorem State.removePending_settings (s : State) (n : Nat) : (s.removePending n).settings = s.settings := rfl
@[simp] theorem State.removePending_cache (s : State) (n : Nat) : (s.removePending n).cache = s.cache := rfl
@[simp] theorem State.removePending_busOpen (s : State) (n : Nat) : (s.removePending n).busOpen = s.busOpen := rfl
@[simp] theorem State.removePending_pending (s : State) (n : Nat) : (s.removePending n).pending = s.pending.eraseP (fun e => e.index == n) := rfl
@[simp] theorem State.removePending_nextTag (s : State) (n : Nat) : (s.removePending n).nextTag = s.nextTag := rfl
@[simp] theorem State.removePending_log (s : State) (n : Nat) : (s.removePending n).log = s.log := rfl
@[simp] theorem State.removePending_refused (s : State) (n : Nat) : (s.removePending n).refused = s.refused := rfl
@[simp] theorem State.removePending_outcomes (s : State) (n : Nat) : (s.removePending n).outcomes = s.outcomes := rfl
@[simp] theorem State.removePending_results (s : State) (n : Nat) : (s.removePending n).results = s.results := rfl
@[simp] theorem State.removePending_issued (s : State) (n : Nat) : (s.removePending n).issued = s.issued := rfl
@[simp] theorem State.removePending_delivered (s : State) (n : Nat) : (s.removePending n).delivered = s.delivered := rfl
@[simp] theorem State.removePending_turns (s : State) (n : Nat) : (s.removePending n).turns = s.turns := rfl
@[simp] theorem State.removePending_draws (s : State) (n : Nat) : (s.removePending n).draws = s.draws := rfl
@[simp] theorem State.removePending_variant (s : State) (n : Nat) : (s.removePending n).variant = s.variant := rfl
@[simp] theorem State.removePending_dir (s : State) (n : Nat) (q : Port) : (s.removePending n).dir q = s.dir q := rfl
@[simp] theorem State.removePending_out (s : State) (n : Nat) (q : Port) : (s.removePending n).out q = s.out q := rfl
@[simp] theorem State.removePending_regRow (s : State) (n : Nat) (q : Port) : (s.removePending n).regRow q = s.regRow q := rfl

/-! ### receive -/

@[simp] theorem State.receive_settings (s : State) (d : Delivery) : (s.receive d).settings = s.settings := rfl
@[simp] theorem State.receive_cache (s : State) (d : Delivery) : (s.receive d).cache = s.cache := rfl
@[simp] theorem State.receive_busOpen (s : State) (d : Delivery) : (s.receive d).busOpen = s.busOpen := rfl
@[simp] theorem State.receive_pending (s : State) (d : Delivery) : (s.receive d).pending = s.pending := rfl
@[simp] theorem State.receive_nextTag (s : State) (d : Delivery) : (s.receive d).nextTag = s.nextTag := rfl
@[simp] theorem State.receive_log (s : State) (d : Delivery) : (s.receive d).log = s.log := rfl
@[simp] theorem State.receive_refused (s : State) (d : Delivery) : (s.receive d).refused = s.refused := rfl
@[simp] theorem State.receive_outcomes (s : State) (d : Delivery) : (s.receive d).outcomes = s.outcomes := rfl
@[simp] theorem State.receive_results (s : State) (d : Delivery) : (s.receive d).results = s.results := rfl
@[simp] theorem State.receive_issued (s : State) (d : Delivery) : (s.receive d).issued = s.issued := rfl
@[simp] theorem State.receive_delivered (s : State) (d : Delivery) : (s.receive d).delivered = s.delivered ++ [d] := rfl
@[simp] theorem State.receive_turns (s : State) (d : Delivery) : (s.receive d).turns = s.turns := rfl
@[simp] theorem State.receive_draws (s : State) (d : Delivery) : (s.receive d).draws = s.draws := rfl
@[simp] theorem State.receive_variant (s : State) (d : Delivery) : (s.receive d).variant = s.variant := rfl
@[simp] theorem State.receive_dir (s : State) (d : Delivery) (q : Port) : (s.receive d).dir q = s.dir q := rfl
@[simp] theorem State.receive_out (s : State) (d : Delivery) (q : Port) : (s.receive d).out q = s.out q := rfl
@[simp] theorem State.receive_regRow (s : State) (d : Delivery) (q : Port) : (s.receive d).regRow q = s.regRow q := rfl

/-! ### markRefused -/

@[simp] theorem State.markRefused_settings (s : State) : s.markRefused.settings = s.settings := rfl
@[simp] theorem State.markRefused_cache (s : State) : s.markRefused.cache = s.cache := rfl
@[simp] theorem State.markRefused_busOpen (s : State) : s.markRefused.busOpen = s.busOpen := rfl
@[simp] theorem State.markRefused_pending (s : State) : s.markRefused.pending = s.pending := rfl
@[simp] theorem State.markRefused_nextTag (s : State) : s.markRefused.nextTag = s.nextTag := rfl
@[simp] theorem State.markRefused_log (s : State) : s.markRefused.log = s.log := rfl
@[simp] theorem State.markRefused_refused (s : State) : s.markRefused.refused = true := rfl
@[simp] theorem State.markRefused_outcomes (s : State) : s.markRefused.outcomes = s.outcomes := rfl
@[simp] theorem State.markRefused_results (s : State) : s.markRefused.results = s.results := rfl
@[simp] theorem State.markRefused_issued (s : State) : s.markRefused.issued = s.issued := rfl
@[simp] theorem State.markRefused_delivered (s : State) : s.markRefused.delivered = s.delivered := rfl
@[simp] theorem State.markRefused_turns (s : State) : s.markRefused.turns = s.turns := rfl
@[simp] theorem State.markRefused_draws (s : State) : s.markRefused.draws = s.draws := rfl
@[simp] theorem State.markRefused_variant (s : State) : s.markRefused.variant = s.variant := rfl
@[simp] theorem State.markRefused_dir (s : State) (q : Port) : s.markRefused.dir q = s.dir q := rfl
@[simp] theorem State.markRefused_out (s : State) (q : Port) : s.markRefused.out q = s.out q := rfl
@[simp] theorem State.markRefused_regRow (s : State) (q : Port) : s.markRefused.regRow q = s.regRow q := rfl

/-! ### present -/

@[simp] theorem State.present_settings (s : State) (w : Word) : (s.present w).settings = s.settings := rfl
@[simp] theorem State.present_cache (s : State) (w : Word) : (s.present w).cache = s.cache := rfl
@[simp] theorem State.present_busOpen (s : State) (w : Word) : (s.present w).busOpen = s.busOpen := rfl
@[simp] theorem State.present_pending (s : State) (w : Word) : (s.present w).pending = s.pending := rfl
@[simp] theorem State.present_nextTag (s : State) (w : Word) : (s.present w).nextTag = s.nextTag := rfl
@[simp] theorem State.present_log (s : State) (w : Word) : (s.present w).log = s.log := rfl
@[simp] theorem State.present_refused (s : State) (w : Word) : (s.present w).refused = s.refused := rfl
@[simp] theorem State.present_outcomes (s : State) (w : Word) : (s.present w).outcomes = s.outcomes := rfl
@[simp] theorem State.present_results (s : State) (w : Word) : (s.present w).results = s.results := rfl
@[simp] theorem State.present_issued (s : State) (w : Word) : (s.present w).issued = s.issued := rfl
@[simp] theorem State.present_delivered (s : State) (w : Word) : (s.present w).delivered = s.delivered := rfl
@[simp] theorem State.present_turns (s : State) (w : Word) : (s.present w).turns = .command w :: s.turns := rfl
@[simp] theorem State.present_draws (s : State) (w : Word) : (s.present w).draws = s.draws := rfl
@[simp] theorem State.present_variant (s : State) (w : Word) : (s.present w).variant = s.variant := rfl
@[simp] theorem State.present_dir (s : State) (w : Word) (q : Port) : (s.present w).dir q = s.dir q := rfl
@[simp] theorem State.present_out (s : State) (w : Word) (q : Port) : (s.present w).out q = s.out q := rfl
@[simp] theorem State.present_regRow (s : State) (w : Word) (q : Port) : (s.present w).regRow q = s.regRow q := rfl

/-! ### withTurns -/

@[simp] theorem State.withTurns_settings (s : State) (rest : List Turn) : (s.withTurns rest).settings = s.settings := rfl
@[simp] theorem State.withTurns_cache (s : State) (rest : List Turn) : (s.withTurns rest).cache = s.cache := rfl
@[simp] theorem State.withTurns_busOpen (s : State) (rest : List Turn) : (s.withTurns rest).busOpen = s.busOpen := rfl
@[simp] theorem State.withTurns_pending (s : State) (rest : List Turn) : (s.withTurns rest).pending = s.pending := rfl
@[simp] theorem State.withTurns_nextTag (s : State) (rest : List Turn) : (s.withTurns rest).nextTag = s.nextTag := rfl
@[simp] theorem State.withTurns_log (s : State) (rest : List Turn) : (s.withTurns rest).log = s.log := rfl
@[simp] theorem State.withTurns_refused (s : State) (rest : List Turn) : (s.withTurns rest).refused = s.refused := rfl
@[simp] theorem State.withTurns_outcomes (s : State) (rest : List Turn) : (s.withTurns rest).outcomes = s.outcomes := rfl
@[simp] theorem State.withTurns_results (s : State) (rest : List Turn) : (s.withTurns rest).results = s.results := rfl
@[simp] theorem State.withTurns_issued (s : State) (rest : List Turn) : (s.withTurns rest).issued = s.issued := rfl
@[simp] theorem State.withTurns_delivered (s : State) (rest : List Turn) : (s.withTurns rest).delivered = s.delivered := rfl
@[simp] theorem State.withTurns_turns (s : State) (rest : List Turn) : (s.withTurns rest).turns = rest := rfl
@[simp] theorem State.withTurns_draws (s : State) (rest : List Turn) : (s.withTurns rest).draws = s.draws := rfl
@[simp] theorem State.withTurns_variant (s : State) (rest : List Turn) : (s.withTurns rest).variant = s.variant := rfl
@[simp] theorem State.withTurns_dir (s : State) (rest : List Turn) (q : Port) : (s.withTurns rest).dir q = s.dir q := rfl
@[simp] theorem State.withTurns_out (s : State) (rest : List Turn) (q : Port) : (s.withTurns rest).out q = s.out q := rfl
@[simp] theorem State.withTurns_regRow (s : State) (rest : List Turn) (q : Port) : (s.withTurns rest).regRow q = s.regRow q := rfl

/-! ### trace -/

@[simp] theorem State.trace_settings (s : State) : s.trace.settings = s.settings := by unfold State.trace; split <;> rfl
@[simp] theorem State.trace_cache (s : State) : s.trace.cache = s.cache := by unfold State.trace; split <;> rfl
@[simp] theorem State.trace_busOpen (s : State) : s.trace.busOpen = s.busOpen := by unfold State.trace; split <;> rfl
@[simp] theorem State.trace_pending (s : State) : s.trace.pending = s.pending := by unfold State.trace; split <;> rfl
@[simp] theorem State.trace_nextTag (s : State) : s.trace.nextTag = s.nextTag := by unfold State.trace; split <;> rfl
@[simp] theorem State.trace_refused (s : State) : s.trace.refused = s.refused := by unfold State.trace; split <;> rfl
@[simp] theorem State.trace_outcomes (s : State) : s.trace.outcomes = s.outcomes := by unfold State.trace; split <;> rfl
@[simp] theorem State.trace_results (s : State) : s.trace.results = s.results := by unfold State.trace; split <;> rfl
@[simp] theorem State.trace_issued (s : State) : s.trace.issued = s.issued := by unfold State.trace; split <;> rfl
@[simp] theorem State.trace_delivered (s : State) : s.trace.delivered = s.delivered := by unfold State.trace; split <;> rfl
@[simp] theorem State.trace_turns (s : State) : s.trace.turns = s.turns := by unfold State.trace; split <;> rfl
@[simp] theorem State.trace_variant (s : State) : s.trace.variant = s.variant := by unfold State.trace; split <;> rfl
@[simp] theorem State.trace_dir (s : State) (q : Port) : s.trace.dir q = s.dir q := by unfold State.trace; split <;> rfl
@[simp] theorem State.trace_out (s : State) (q : Port) : s.trace.out q = s.out q := by unfold State.trace; split <;> rfl
@[simp] theorem State.trace_regRow (s : State) (q : Port) : s.trace.regRow q = s.regRow q := by unfold State.trace; split <;> rfl

/-! ### traced -/

@[simp] theorem State.traced_settings (s : State) (body : State → State) : (s.traced body).settings = (body s.trace).settings := by
  simp [State.traced]
@[simp] theorem State.traced_cache (s : State) (body : State → State) : (s.traced body).cache = (body s.trace).cache := by
  simp [State.traced]
@[simp] theorem State.traced_busOpen (s : State) (body : State → State) : (s.traced body).busOpen = (body s.trace).busOpen := by
  simp [State.traced]
@[simp] theorem State.traced_pending (s : State) (body : State → State) : (s.traced body).pending = (body s.trace).pending := by
  simp [State.traced]
@[simp] theorem State.traced_nextTag (s : State) (body : State → State) : (s.traced body).nextTag = (body s.trace).nextTag := by
  simp [State.traced]
@[simp] theorem State.traced_refused (s : State) (body : State → State) : (s.traced body).refused = (body s.trace).refused := by
  simp [State.traced]
@[simp] theorem State.traced_outcomes (s : State) (body : State → State) : (s.traced body).outcomes = (body s.trace).outcomes := by
  simp [State.traced]
@[simp] theorem State.traced_results (s : State) (body : State → State) : (s.traced body).results = (body s.trace).results := by
  simp [State.traced]
@[simp] theorem State.traced_issued (s : State) (body : State → State) : (s.traced body).issued = (body s.trace).issued := by
  simp [State.traced]
@[simp] theorem State.traced_delivered (s : State) (body : State → State) : (s.traced body).delivered = (body s.trace).delivered := by
  simp [State.traced]
@[simp] theorem State.traced_turns (s : State) (body : State → State) : (s.traced body).turns = (body s.trace).turns := by
  simp [State.traced]
@[simp] theorem State.traced_variant (s : State) (body : State → State) : (s.traced body).variant = (body s.trace).variant := by
  simp [State.traced]
@[simp] theorem State.traced_dir (s : State) (body : State → State) (q : Port) : (s.traced body).dir q = (body s.trace).dir q := by
  simp [State.traced]
@[simp] theorem State.traced_out (s : State) (body : State → State) (q : Port) : (s.traced body).out q = (body s.trace).out q := by
  simp [State.traced]
@[simp] theorem State.traced_regRow (s : State) (body : State → State) (q : Port) : (s.traced body).regRow q = (body s.trace).regRow q := by
  simp [State.traced]

/-- R172: a trace point appends only debug events, and none with DEBUG false. -/
theorem State.trace_log (s : State) :
    ∃ es : List LogEvent, s.trace.log = s.log ++ es ∧ (∀ e ∈ es, e.kind = .debug) ∧
      (s.settings.debug = false → es = []) := by
  unfold State.trace
  split
  · rename_i h
    exact ⟨_, rfl, by simp, by simp [h]⟩
  · exact ⟨[], by simp, by simp, fun _ => rfl⟩

/-- R31, R172: a step's body between trace points: the log gains what the body logs, and debug events around it only
where DEBUG is set. -/
theorem State.traced_logGains {s u : State} {body : State → State} {kinds : List LogKind}
    (hlog : ∀ t : State, ∃ mid : List LogEvent, (body t).log = t.log ++ mid ∧ mid.map LogEvent.kind = kinds)
    (hset : ∀ t : State, (body t).settings = t.settings) (hu : u.log = s.log) (hus : u.settings = s.settings) :
    LogGains s (u.traced body) kinds := by
  obtain ⟨pre, hpre, hpd, hpn⟩ := u.trace_log
  obtain ⟨mid, hmid, hmk⟩ := hlog u.trace
  obtain ⟨post, hpost, hqd, hqn⟩ := (body u.trace).trace_log
  refine ⟨pre, mid, post, ?_, hmk, ?_, fun h => ?_⟩
  · simp [State.traced, hpost, hmid, hpre, hu]
  · intro e he
    rcases List.mem_append.mp he with he | he
    exacts [hpd e he, hqd e he]
  · rw [hpn (by rw [hus, h]), hqn (by rw [hset, State.trace_settings, hus, h])]
    rfl

/-! ### The chip registers of a port -/

@[simp] theorem State.regDir_eq (s : State) (p : Port) : s.regDir p = (s.regRow p).dir := rfl
@[simp] theorem State.regOut_eq (s : State) (p : Port) : s.regOut p = (s.regRow p).output := rfl
@[simp] theorem State.regIn_eq (s : State) (p : Port) : s.regIn p = (s.regRow p).input := rfl

/-! ### The register cache -/

@[simp] theorem Cache.setPort_variant (c : Cache) (p : Port) (r : PortRegs) : (c.setPort p r).variant = c.variant := by
  cases c <;> cases p <;> rfl

@[simp] theorem Cache.port_setPort (c : Cache) (p : Port) (r : PortRegs) : (c.setPort p r).port p = r := by
  cases c <;> cases p <;> rfl

/-- Writing one port leaves the other alone, among the ports the variant has. -/
theorem Cache.port_setPort_of_ne (c : Cache) {p q : Port} (r : PortRegs) (hp : p ∈ c.variant.ports)
    (hq : q ∈ c.variant.ports) (h : q ≠ p) : (c.setPort p r).port q = c.port q := by
  cases c <;> cases p <;> cases q <;> simp_all [Cache.variant, Variant.ports] <;> rfl

@[simp] theorem State.setDir_variant (s : State) (p : Port) (v : Byte) : (s.setDir p v).variant = s.variant := by
  simp [State.variant]
@[simp] theorem State.setOut_variant (s : State) (p : Port) (v : Byte) : (s.setOut p v).variant = s.variant := by
  simp [State.variant]
@[simp] theorem State.setDir_regRow (s : State) (p q : Port) (v : Byte) : (s.setDir p v).regRow q = s.regRow q := by
  simp [State.regRow]
@[simp] theorem State.setOut_regRow (s : State) (p q : Port) (v : Byte) : (s.setOut p v).regRow q = s.regRow q := by
  simp [State.regRow]
@[simp] theorem State.setDir_dir (s : State) (p : Port) (v : Byte) : (s.setDir p v).dir p = v := by simp [State.dir]
@[simp] theorem State.setOut_out (s : State) (p : Port) (v : Byte) : (s.setOut p v).out p = v := by simp [State.out]

/-- A direction write leaves every output register alone. -/
@[simp] theorem State.setDir_out (s : State) (p q : Port) (v : Byte) : (s.setDir p v).out q = s.out q := by
  unfold State.out State.setDir
  cases s.cache <;> cases p <;> cases q <;> rfl

/-- An output write leaves every direction register alone. -/
@[simp] theorem State.setOut_dir (s : State) (p q : Port) (v : Byte) : (s.setOut p v).dir q = s.dir q := by
  unfold State.dir State.setOut
  cases s.cache <;> cases p <;> cases q <;> rfl

theorem State.setDir_dir_of_ne (s : State) {p q : Port} (v : Byte) (hp : p ∈ s.variant.ports)
    (hq : q ∈ s.variant.ports) (h : q ≠ p) : (s.setDir p v).dir q = s.dir q := by
  simp [State.dir, Cache.port_setPort_of_ne _ _ hp hq h]

theorem State.setOut_out_of_ne (s : State) {p q : Port} (v : Byte) (hp : p ∈ s.variant.ports)
    (hq : q ∈ s.variant.ports) (h : q ≠ p) : (s.setOut p v).out q = s.out q := by
  simp [State.out, Cache.port_setPort_of_ne _ _ hp hq h]

end Sys2Proof.Machine
end

