-- ==== Sys2Proof/Laws/Operations.lean ====
section
/-! SUPPORT. What each shared operation, each command and a step can do, said once; proofs cite these instead of
unfolding. -/

namespace Sys2Proof.Machine

open Sys2Proof

/-! ### Pins -/

theorem bitAt_eq_getLsbD (byte : Byte) (b : BitOffset) : bitAt byte b = byte.getLsbD b.val := by
  revert byte
  fin_cases b <;> decide

/-- `locate` succeeds exactly on the pins `pinCheck` passes, with what `resolve` says. -/
theorem locate_eq_ok_iff {v : Variant} {pin : Pin} {pb : Port × BitOffset} :
    locate v pin = .ok pb ↔ ∃ k, pin = .int k ∧ pinCheck v (.int k) = none ∧ resolve v k = pb := by
  cases pin with
  | nonInt => simp [locate, pinCheck]
  | int k =>
    unfold locate
    split <;> simp_all

/-- `locate` fails exactly with the cause `pinCheck` gives. -/
theorem locate_eq_error_iff {v : Variant} {pin : Pin} {c : Cause} :
    locate v pin = .error c ↔ pinCheck v pin = some c := by
  cases pin with
  | nonInt => simp [locate, pinCheck]
  | int k =>
    unfold locate
    split <;> simp_all

theorem resolve_port_mem (v : Variant) (k : Int) : (resolve v k).1 ∈ v.ports := by
  cases v
  · simp [resolve, Variant.ports]
  · simp only [resolve]
    split <;> simp [Variant.ports]

theorem locate_port_mem {v : Variant} {pin : Pin} {p : Port} {b : BitOffset} (h : locate v pin = .ok (p, b)) :
    p ∈ v.ports := by
  obtain ⟨k, -, -, hk⟩ := locate_eq_ok_iff.mp h
  have := resolve_port_mem v k
  rwa [hk] at this

/-! ### Commands -/

/-- R120: pinMode rejects, finds the bit already there, or toggles it and issues the whole byte. -/
theorem pinModeBody_cases (pin : Pin) (d : Direction) (s : State) :
    (dirBit d = none ∧ pinModeBody pin d s = s.raise .direction) ∨
    (∃ want c, dirBit d = some want ∧ locate s.variant pin = .error c ∧ pinModeBody pin d s = s.raise c) ∨
    (∃ want p b, dirBit d = some want ∧ locate s.variant pin = .ok (p, b) ∧ bitAt (s.dir p) b = want ∧
      pinModeBody pin d s = s.emit .ok) ∨
    (∃ want p b, dirBit d = some want ∧ locate s.variant pin = .ok (p, b) ∧ bitAt (s.dir p) b ≠ want ∧
      pinModeBody pin d s =
        ((s.setDir p (s.dir p ^^^ mask b)).issueWrite (s.regDir p) (s.dir p ^^^ mask b)).emit .ok) := by
  unfold pinModeBody
  cases hd : dirBit d with
  | none => simp
  | some want =>
    cases hl : locate s.variant pin with
    | error c => simp
    | ok pb =>
      obtain ⟨p, b⟩ := pb
      by_cases hb : bitAt (s.dir p) b = want
      · exact .inr (.inr (.inl ⟨want, p, b, rfl, rfl, hb, by simp [mutate, hb]⟩))
      · exact .inr (.inr (.inr ⟨want, p, b, rfl, rfl, hb, by simp [mutate, hb]⟩))

/-- R130: digitalWrite rejects, finds the level already there, or toggles the bit and issues the whole byte. -/
theorem digitalWriteBody_cases (pin : Pin) (val : WriteValue) (s : State) :
    (levelOf s.settings val = none ∧ digitalWriteBody pin val s = s.raise .value) ∨
    (∃ lvl c, levelOf s.settings val = some lvl ∧ locate s.variant pin = .error c ∧
      digitalWriteBody pin val s = s.raise c) ∨
    (∃ lvl p b, levelOf s.settings val = some lvl ∧ locate s.variant pin = .ok (p, b) ∧ bitAt (s.out p) b = lvl ∧
      digitalWriteBody pin val s = s.emit .ok) ∨
    (∃ lvl p b, levelOf s.settings val = some lvl ∧ locate s.variant pin = .ok (p, b) ∧ bitAt (s.out p) b ≠ lvl ∧
      digitalWriteBody pin val s =
        ((s.setOut p (s.out p ^^^ mask b)).issueWrite (s.regOut p) (s.out p ^^^ mask b)).emit .ok) := by
  unfold digitalWriteBody
  cases hd : levelOf s.settings val with
  | none => simp
  | some lvl =>
    cases hl : locate s.variant pin with
    | error c => simp
    | ok pb =>
      obtain ⟨p, b⟩ := pb
      by_cases hb : bitAt (s.out p) b = lvl
      · exact .inr (.inr (.inl ⟨lvl, p, b, rfl, rfl, hb, by simp [mutate, hb]⟩))
      · exact .inr (.inr (.inr ⟨lvl, p, b, rfl, rfl, hb, by simp [mutate, hb]⟩))

/-- R140: digitalRead rejects, or issues one read and returns its tag. -/
theorem digitalReadBody_cases (pin : Pin) (s : State) :
    (∃ c, locate s.variant pin = .error c ∧ digitalReadBody pin s = s.raise c) ∨
    (∃ p b, locate s.variant pin = .ok (p, b) ∧
      digitalReadBody pin s = (s.issueRead (s.regIn p) b).emit (.issued s.nextTag)) := by
  unfold digitalReadBody
  cases hl : locate s.variant pin with
  | error c => exact .inl ⟨c, rfl, rfl⟩
  | ok pb => exact .inr ⟨pb.1, pb.2, rfl, rfl⟩

/-- R150 on SINGLE: one direction write, then one output write. -/
theorem initSequence_single (s : State) (h : s.variant = .single) :
    s.initSequence =
      (((s.setDir .A 0xFF#8).issueWrite (s.regDir .A) 0xFF#8).setOut .A 0x00#8).issueWrite (s.regOut .A) 0x00#8 := by
  simp [State.initSequence, State.forPorts, h, Variant.ports]

/-- R150 on DUAL: both directions and their writes, then both outputs and their writes. -/
theorem initSequence_dual (s : State) (h : s.variant = .dual) :
    s.initSequence =
      ((((((((s.setDir .A 0xFF#8).setDir .B 0xFF#8).issueWrite (s.regDir .A) 0xFF#8).issueWrite (s.regDir .B)
        0xFF#8).setOut .A 0x00#8).setOut .B 0x00#8).issueWrite (s.regOut .A) 0x00#8).issueWrite (s.regOut .B)
        0x00#8) := by
  simp [State.initSequence, State.forPorts, h, Variant.ports]

/-- What a command does to the block between the trace points of its step. -/
def commandBody : Instr → State → State
  | .pinMode pin d => pinModeBody pin d
  | .digitalWrite pin val => digitalWriteBody pin val
  | .digitalRead pin => digitalReadBody pin
  | .reset => resetBody

/-- Every command answers a next state: its body, traced. -/
theorem exec_eq (i : Instr) (s : State) : exec i s = .next (s.traced (commandBody i)) := by cases i <;> rfl

/-- R150, once: the cache, the transactions and nothing else. -/
structure InitSequenceSpec (s t : State) : Prop where
  variant : t.variant = s.variant
  regs : ∀ p ∈ s.variant.ports, t.dir p = 0xFF#8 ∧ t.out p = 0x00#8
  issues : Issues s t s.initWrites
  settings : t.settings = s.settings
  busOpen : t.busOpen = s.busOpen
  nextTag : t.nextTag = s.nextTag
  log : t.log = s.log
  refused : t.refused = s.refused
  outcomes : t.outcomes = s.outcomes
  results : t.results = s.results
  delivered : t.delivered = s.delivered
  turns : t.turns = s.turns
  draws : t.draws = s.draws

theorem initSequence_spec (s : State) : InitSequenceSpec s s.initSequence := by
  cases hv : s.variant
  · rw [initSequence_single s hv]
    refine ⟨?_, ?_, ⟨?_, ?_⟩, ?_, ?_, ?_, ?_, ?_, ?_, ?_, ?_, ?_, ?_⟩ <;>
      simp [hv, Variant.ports, State.initWrites, numbered]
  · rw [initSequence_dual s hv]
    refine ⟨?_, ?_, ⟨?_, ?_⟩, ?_, ?_, ?_, ?_, ?_, ?_, ?_, ?_, ?_, ?_⟩ <;>
      simp [hv, Variant.ports, State.initWrites, numbered, State.setDir_dir_of_ne, State.setOut_out_of_ne]

/-- What every command leaves alone, and that what it issues and returns is appended. -/
structure CommandFrame (s t : State) : Prop where
  settings : t.settings = s.settings
  variant : t.variant = s.variant
  busOpen : t.busOpen = s.busOpen
  refused : t.refused = s.refused
  results : t.results = s.results
  delivered : t.delivered = s.delivered
  turns : t.turns = s.turns
  issues : ∃ txns, Issues s t txns
  outcomes : ∃ o, t.outcomes = s.outcomes ++ [o]

theorem Issues.refl_of_eq {s t : State} (hp : t.pending = s.pending) (hi : t.issued = s.issued) : Issues s t [] :=
  ⟨by simp [numbered, hp], by simp [numbered, hi]⟩

theorem raise_frame (s : State) (c : Cause) : CommandFrame s (s.raise c) :=
  ⟨rfl, rfl, rfl, rfl, rfl, rfl, rfl, ⟨[], .refl_of_eq rfl rfl⟩, ⟨_, rfl⟩⟩

theorem emit_frame (s : State) (o : PortOutcome) : CommandFrame s (s.emit o) :=
  ⟨rfl, rfl, rfl, rfl, rfl, rfl, rfl, ⟨[], .refl_of_eq rfl rfl⟩, ⟨_, rfl⟩⟩

theorem commandBody_frame (i : Instr) (s : State) : CommandFrame s (commandBody i s) := by
  cases i with
  | pinMode pin d =>
    rcases pinModeBody_cases pin d s with ⟨-, h⟩ | ⟨_, c, -, -, h⟩ | ⟨_, _, _, -, -, -, h⟩ | ⟨_, p, b, -, -, -, h⟩ <;>
      rw [commandBody, h]
    · exact raise_frame s _
    · exact raise_frame s _
    · exact emit_frame s _
    · exact ⟨by simp, by simp, by simp, by simp, by simp, by simp, by simp,
        ⟨[.write s.settings.address (s.regDir p) (s.dir p ^^^ mask b)], by simp [numbered], by simp [numbered]⟩,
        ⟨.ok, by simp⟩⟩
  | digitalWrite pin val =>
    rcases digitalWriteBody_cases pin val s with
      ⟨-, h⟩ | ⟨_, c, -, -, h⟩ | ⟨_, _, _, -, -, -, h⟩ | ⟨_, p, b, -, -, -, h⟩ <;> rw [commandBody, h]
    · exact raise_frame s _
    · exact raise_frame s _
    · exact emit_frame s _
    · exact ⟨by simp, by simp, by simp, by simp, by simp, by simp, by simp,
        ⟨[.write s.settings.address (s.regOut p) (s.out p ^^^ mask b)], by simp [numbered], by simp [numbered]⟩,
        ⟨.ok, by simp⟩⟩
  | digitalRead pin =>
    rcases digitalReadBody_cases pin s with ⟨c, -, h⟩ | ⟨p, b, -, h⟩ <;> rw [commandBody, h]
    · exact raise_frame s _
    · exact ⟨by simp, by simp, by simp, by simp, by simp, by simp, by simp,
        ⟨[.read s.settings.address (s.regIn p) s.nextTag b], by simp [numbered], by simp [numbered]⟩,
        ⟨.issued s.nextTag, by simp⟩⟩
  | reset =>
    have h := initSequence_spec s
    exact ⟨h.settings, h.variant, h.busOpen, h.refused, h.results, h.delivered, h.turns,
      ⟨s.initWrites, h.issues.pending, h.issues.issued⟩, ⟨.ok, by simp [commandBody, resetBody, h.outcomes]⟩⟩

/-- The same of a whole command step. -/
theorem exec_frame {i : Instr} {s t : State} (h : exec i s = .next t) : CommandFrame s t := by
  rw [exec_eq] at h
  cases h
  have f := commandBody_frame i s.trace
  obtain ⟨x, hx⟩ := f.issues
  obtain ⟨o, ho⟩ := f.outcomes
  exact ⟨by simp [f.settings], by simp [f.variant], by simp [f.busOpen], by simp [f.refused], by simp [f.results],
    by simp [f.delivered], by simp [f.turns], ⟨x, by simp [hx.pending], by simp [hx.issued]⟩, ⟨o, by simp [ho]⟩⟩

/-! ### The transport -/

/-- A transport step that answers a next state selected a pending entry it may select, and resolved it. -/
theorem transportStep_cases {index : Nat} {a : Answer} {s t : State} (h : transportStep index a s = .next t) :
    ∃ e, s.pending.find? (fun e => e.index == index) = some e ∧ s.maySelect index = true ∧
      t = (s.removePending index).traced (resolveTransaction e.txn a) := by
  unfold transportStep at h
  split at h
  · cases h
  · rename_i e he
    split at h
    · rename_i hm
      exact ⟨e, he, hm, by cases h; rfl⟩
    · cases h

/-- R61–R64: the four resolutions. -/
theorem resolveTransaction_cases (txn : Transaction) (a : Answer) (s : State) :
    (∃ c r v byte, txn = .write c r v ∧ a = .success byte ∧
      resolveTransaction txn a s = s.receive { addr := c, reg := r, v := v }) ∨
    (∃ c r v, txn = .write c r v ∧ a = .failure ∧ resolveTransaction txn a s = s.logEvent .writeFailed) ∨
    (∃ c r tag b byte, txn = .read c r tag b ∧ a = .success byte ∧
      resolveTransaction txn a s = s.deliver { tag := tag, value := .level (readLevel s.settings byte b) }) ∨
    (∃ c r tag b, txn = .read c r tag b ∧ a = .failure ∧
      resolveTransaction txn a s = s.deliver { tag := tag, value := .transportFailure }) := by
  cases txn <;> cases a <;> simp [resolveTransaction]

/-- What every completion leaves alone. -/
structure CompletionFrame (s t : State) : Prop where
  settings : t.settings = s.settings
  cache : t.cache = s.cache
  busOpen : t.busOpen = s.busOpen
  pending : t.pending = s.pending
  nextTag : t.nextTag = s.nextTag
  refused : t.refused = s.refused
  outcomes : t.outcomes = s.outcomes
  issued : t.issued = s.issued
  turns : t.turns = s.turns

theorem resolveTransaction_frame (txn : Transaction) (a : Answer) (s : State) :
    CompletionFrame s (resolveTransaction txn a s) := by
  cases txn <;> cases a <;> exact ⟨rfl, rfl, rfl, rfl, rfl, rfl, rfl, rfl, rfl⟩

/-- R30, R41: a refused word's step. -/
@[simp] theorem refuseWord_eq (s : State) : s.refuseWord = s.traced (fun t => t.markRefused.emit .refused) := rfl

/-! ### A step -/

/-- The state after a command word is taken, and after a transport move is taken. -/
theorem nextTurn_cases (s : State) :
    (s.turns = [] ∧ s.nextTurn = none) ∨
    (∃ m rest, s.turns = m :: rest ∧ s.nextTurn = some (m, (s.withTurns rest))) := by
  unfold State.nextTurn
  cases s.turns with
  | nil => exact .inl ⟨rfl, rfl⟩
  | cons m rest => exact .inr ⟨m, rest, rfl, rfl⟩

/-- R205: a step that answers a next state was a command, a refused word, or a transport step. -/
theorem step_cases {s t : State} (h : step s = .next t) :
    (∃ w rest i, s.turns = .command w :: rest ∧ decode w = .ok i ∧ exec i (s.withTurns rest) = .next t) ∨
    (∃ w rest e, s.turns = .command w :: rest ∧ decode w = .error e ∧
      t = (s.withTurns rest).refuseWord) ∨
    (∃ index a rest, s.turns = .complete index a :: rest ∧
      transportStep index a (s.withTurns rest) = .next t) := by
  unfold step at h
  rcases nextTurn_cases s with ⟨-, hn⟩ | ⟨m, rest, hm, hn⟩
  · rw [hn] at h; cases h
  · rw [hn] at h
    cases m with
    | command w =>
      simp only [commandStep] at h
      split at h
      · rename_i i hi
        exact .inl ⟨w, rest, i, hm, hi, h⟩
      · rename_i e he
        exact .inr (.inl ⟨w, rest, e, hm, he, by cases h; rfl⟩)
    | complete index a => exact .inr (.inr ⟨index, a, rest, hm, h⟩)

end Sys2Proof.Machine
end

