-- ==== Sys2Proof/Laws/PerInstr.lean ====
section
/-! SUPPORT. A statement about every command as syntax, one lemma per constructor: the fixed fields of its word. -/

namespace Sys2Proof.Laws.EncodedFields

open Sys2Proof

/-- R81, R82: the word of a command carries the operation's selector in OP, and zero in Z1 and Z2. -/
def Statement (i : Instr) : Prop :=
  opField (encode i) = i.operation.code ∧ z1Field (encode i) = 0#4 ∧ z2Field (encode i) = 0#2

theorem pinMode (pin : Pin) (d : Direction) : Statement (.pinMode pin d) := by
  simp [Statement, encode, Instr.operation]

theorem digitalWrite (pin : Pin) (val : WriteValue) : Statement (.digitalWrite pin val) := by
  simp [Statement, encode, Instr.operation]

theorem digitalRead (pin : Pin) : Statement (.digitalRead pin) := by
  simp [Statement, encode, Instr.operation]

theorem reset : Statement .reset := by
  simp [Statement, encode, Instr.operation]

end Sys2Proof.Laws.EncodedFields
end

