-- ==== Sys2Proof/Laws/Records.lean ====
section
/-! SUPPORT. The records of the transport port: numbered transactions, the writes to one register, and what the
bookkeeping invariant says about selecting a pending entry. -/

namespace Sys2Proof.Machine

open Sys2Proof

/-! ### Numbered transactions -/

@[simp] theorem numbered_nil (n : Nat) : numbered n [] = [] := rfl

@[simp] theorem numbered_cons (n : Nat) (x : Transaction) (xs : List Transaction) :
    numbered n (x :: xs) = ⟨n, x⟩ :: numbered (n + 1) xs := rfl

@[simp] theorem numbered_length (n : Nat) (xs : List Transaction) : (numbered n xs).length = xs.length := by
  induction xs generalizing n <;> simp [*]

theorem numbered_map_index (n : Nat) (xs : List Transaction) :
    (numbered n xs).map Entry.index = List.range' n xs.length := by
  induction xs generalizing n <;> simp [List.range'_succ, *]

theorem numbered_filterMap {β : Type} (n : Nat) (xs : List Transaction) (f : Transaction → Option β) :
    (numbered n xs).filterMap (fun e => f e.txn) = xs.filterMap f := by
  induction xs generalizing n <;> simp [List.filterMap_cons, *]

theorem txn_mem_of_mem_numbered {n : Nat} {xs : List Transaction} {e : Entry} (h : e ∈ numbered n xs) :
    e.txn ∈ xs := by
  induction xs generalizing n with
  | nil => cases h
  | cons x xs ih =>
    rcases List.mem_cons.mp h with rfl | h
    · exact List.mem_cons_self
    · exact List.mem_cons_of_mem _ (ih h)

/-- What a step's body issues, the step issues. -/
theorem Issues.traced {s : State} {body : State → State} {txns : List Transaction}
    (h : Issues s.trace (body s.trace) txns) : Issues s (s.traced body) txns :=
  ⟨by simpa using h.pending, by simpa using h.issued⟩

/-! ### The writes to one register -/

@[simp] theorem writeTo?_write (reg r : RegAddr) (c : ChipAddr) (v : Byte) :
    (Transaction.write c r v).writeTo? reg = if r = reg then some v else none := rfl

@[simp] theorem writeTo?_read (reg r : RegAddr) (c : ChipAddr) (tag : Nat) (b : BitOffset) :
    (Transaction.read c r tag b).writeTo? reg = none := rfl

@[simp] theorem writesTo_nil (reg : RegAddr) : writesTo reg [] = [] := rfl

@[simp] theorem writesTo_append (reg : RegAddr) (es fs : List Entry) :
    writesTo reg (es ++ fs) = writesTo reg es ++ writesTo reg fs := by simp [writesTo]

@[simp] theorem writesTo_numbered (reg : RegAddr) (n : Nat) (xs : List Transaction) :
    writesTo reg (numbered n xs) = xs.filterMap (Transaction.writeTo? reg) := numbered_filterMap n xs _

/-! ### The books -/

/-- Issue indices are unique among pending entries. -/
theorem State.BookKept.index_inj {s : State} (h : s.BookKept) {e x : Entry} (he : e ∈ s.pending)
    (hx : x ∈ s.pending) (hi : e.index = x.index) : e = x := by
  have nd : (s.issued.map Entry.index).Nodup := by rw [h.indices]; exact List.nodup_range
  exact List.inj_on_of_nodup_map nd (h.pending.subset he) (h.pending.subset hx) hi

/-- Pending entries stand in the order of their issue. -/
theorem State.BookKept.pending_sorted {s : State} (h : s.BookKept) :
    s.pending.Pairwise (fun e x => e.index < x.index) := by
  have hr : (s.issued.map Entry.index).Pairwise (· < ·) := by rw [h.indices]; exact List.pairwise_lt_range
  exact (List.pairwise_map.mp hr).sublist h.pending

theorem State.BookKept.withTurns {s : State} (h : s.BookKept) (rest : List Turn) : (s.withTurns rest).BookKept :=
  ⟨h.indices, h.tags, h.pending⟩

/-- Removing by issue index removes the entry. -/
theorem State.BookKept.removePending_eq {s : State} (h : s.BookKept) {e : Entry} (he : e ∈ s.pending) :
    (s.removePending e.index).pending = s.pending.erase e := by
  rw [State.removePending_pending, List.erase_eq_eraseP]
  have key : ∀ l : List Entry, (∀ x ∈ l, x ∈ s.pending) →
      l.eraseP (fun x => x.index == e.index) = l.eraseP (fun x => e == x) := by
    intro l
    induction l with
    | nil => simp
    | cons y ys ih =>
      intro hl
      have hy : (y.index == e.index) = (e == y) := by
        by_cases hi : y.index = e.index
        · simp [h.index_inj (hl y (by simp)) he hi]
        · have hne : e ≠ y := fun hh => hi (by rw [hh])
          simp [hi, hne]
      simp only [List.eraseP_cons, hy, ih (fun x hx => hl x (by simp [hx]))]
  exact key _ (fun _ hx => hx)

/-- R60: a pending entry that may be selected is resolved. -/
theorem State.BookKept.transportStep_eq {s : State} (h : s.BookKept) {e : Entry} (he : e ∈ s.pending)
    (ho : s.settings.transportInOrder = true → ∀ x ∈ s.pending, e.index ≤ x.index) (a : Answer) :
    transportStep e.index a s = .next ((s.removePending e.index).traced (resolveTransaction e.txn a)) := by
  have hf : s.pending.find? (fun x => x.index == e.index) = some e := by
    cases hx : s.pending.find? (fun x => x.index == e.index) with
    | none =>
      rw [List.find?_eq_none] at hx
      simpa using hx e he
    | some y =>
      have hy := List.find?_some hx
      simp only [beq_iff_eq] at hy
      rw [h.index_inj (List.mem_of_find?_eq_some hx) he hy]
  have hm : s.maySelect e.index = true := by
    cases hi : s.settings.transportInOrder <;> simp_all [State.maySelect]
  simp [transportStep, hf, hm]

/-! ### A step whose next move is known -/

theorem step_of_command {s : State} {w : Word} {rest : List Turn} (h : s.turns = .command w :: rest) :
    step s = commandStep w (s.withTurns rest) := by
  simp [step, State.nextTurn, h]

theorem step_of_complete {s : State} {index : Nat} {a : Answer} {rest : List Turn}
    (h : s.turns = .complete index a :: rest) : step s = transportStep index a (s.withTurns rest) := by
  simp [step, State.nextTurn, h]

end Sys2Proof.Machine
end

