-- ==== Sys2Proof/Tests/Slice0.lean ====
section
/-! SUPPORT. Tests from the spec's own vectors (95_test_vectors.md, 30_encoding.md R95), the smoke test of WellFormed, and
for every statement with hypotheses a witness that meets them together. -/

namespace Sys2Proof.Tests

open Sys2Proof Sys2Proof.Machine

/-- A field of the next state, if there is one. -/
def after {α : Type} (o : Host.Outcome State Fault Refusal) (f : State → α) : Option α :=
  match o with
  | .next s => some (f s)
  | .fault _ => none
  | .refused _ => none

/-- A SINGLE block with these cache values, nothing pending. -/
def single (dir out : Byte) : State :=
  { State.reset with cache := .single ⟨dir, out⟩, pending := [], issued := [] }

/-- A DUAL block with these cache values, nothing pending. -/
def dual (dirA outA dirB outB : Byte) : State :=
  { State.reset with cache := .dual ⟨dirA, outA⟩ ⟨dirB, outB⟩, pending := [], issued := [] }

/-- A state with REVERSE and NUMERIC_FOLLOWS_POLARITY as given. -/
def polarity (s : State) (reverse nfp : Bool) : State :=
  { s with settings := { s.settings with reverse := reverse, numericFollowsPolarity := nfp } }

/-- 95 T1's pending writes, on a fresh SINGLE block. -/
def twoWrites (inOrder : Bool) : State :=
  { single 0xFC#8 0x00#8 with
    settings := { Settings.default with transportInOrder := inOrder }
    pending := [⟨0, .write 0x20#7 0x00#8 0xFE#8⟩, ⟨1, .write 0x20#7 0x00#8 0xFC#8⟩]
    issued := [⟨0, .write 0x20#7 0x00#8 0xFE#8⟩, ⟨1, .write 0x20#7 0x00#8 0xFC#8⟩] }

/-- A SINGLE block with the read of R143 pending. -/
def oneRead : State :=
  { single 0xFF#8 0x00#8 with
    nextTag := 1
    pending := [⟨0, .read 0x20#7 0x09#8 0 5⟩]
    issued := [⟨0, .read 0x20#7 0x09#8 0 5⟩] }

/-! ### Well-formedness: an ill-formed term for the one check, on each side -/

theorem test_pin_above_range_ill_formed : (Instr.pinMode (.int 32768) .input).wellFormed = false := by decide
theorem test_pin_below_range_ill_formed : (Instr.digitalRead (.int (-32769))).wellFormed = false := by decide
theorem test_pin_edges_well_formed :
    (Instr.digitalWrite (.int 32767) .bad).wellFormed = true ∧ (Instr.digitalRead (.int (-32768))).wellFormed = true := by
  decide

/-! ### Decoding, words from R95 and 95_test_vectors.md 2.6 -/

theorem test_decode_pinMode : decodeTableWord 32 0x10000003 = some (.pinMode (.int 3) .output) := by decide
theorem test_decode_pinMode_negative_bad : decodeTableWord 32 0x1007FFFD = some (.pinMode (.int (-3)) .bad) := by decide
theorem test_decode_digitalWrite : decodeTableWord 32 0x20430000 = some (.digitalWrite .nonInt .boolTrue) := by decide
theorem test_decode_digitalRead : decodeTableWord 32 0x30000005 = some (.digitalRead (.int 5)) := by decide
theorem test_decode_reset : decodeTableWord 32 0x40000000 = some .reset := by decide
theorem test_refuse_op : decode 0x60000000#32 = .error .reservedOp := by decide
theorem test_refuse_z1 : decode 0x11000003#32 = .error .reservedField := by decide
theorem test_refuse_z2 : decode 0x10100003#32 = .error .reservedField := by decide
theorem test_refuse_pk : decode 0x10800003#32 = .error .reservedPinKind := by decide
theorem test_refuse_nonint_bits : decode 0x10410001#32 = .error .nonIntPinBits := by decide
theorem test_refuse_read_arg : decode 0x30010005#32 = .error .argBits := by decide
theorem test_refuse_reset_bits : decode 0x40000001#32 = .error .resetBits := by decide
theorem test_encode_baddir : encode (.pinMode (.int 3) .bad) = 0x10020003#32 := by decide

/-! ### One step each, from 95_test_vectors.md -/

/-- PM11 -/
theorem test_pinMode_dual_15 : after (step ((dual 0xFF#8 0 0xFE#8 0).present 0x1000000F#32))
    (fun t => (t.cache, t.pending, t.outcomes)) =
      some (.dual ⟨0xFF#8, 0⟩ ⟨0x7E#8, 0⟩, [⟨0, .write 0x20#7 0x01#8 0x7E#8⟩], [.ok]) := by decide
/-- PM9 -/
theorem test_pinMode_priority : after (step ((single 0xFF#8 0).present 0x10020063#32))
    (fun t => (t.cache, t.pending, t.outcomes)) = some (.single ⟨0xFF#8, 0⟩, [], [.invalidArgument .direction]) := by
  decide
/-- DW11 -/
theorem test_digitalWrite_reverse_false : after (step ((polarity (single 0xFF#8 0) true false).present 0x20020000#32))
    (fun t => (t.cache, t.pending)) = some (.single ⟨0xFF#8, 0x01#8⟩, [⟨0, .write 0x20#7 0x09#8 0x01#8⟩]) := by decide
/-- DW13 -/
theorem test_digitalWrite_numeric_polarity :
    after (step ((polarity (single 0xFF#8 0x01#8) true true).present 0x20010000#32))
      (fun t => (t.cache, t.pending)) = some (.single ⟨0xFF#8, 0⟩, [⟨0, .write 0x20#7 0x09#8 0⟩]) := by decide
/-- DR5 -/
theorem test_digitalRead_dual_9 : after (step ((dual 0xFF#8 0 0xFF#8 0).present 0x30000009#32))
    (fun t => (t.pending, t.nextTag, t.outcomes)) = some ([⟨0, .read 0x20#7 0x13#8 0 1⟩], 1, [.issued 0]) := by decide
/-- DR4 -/
theorem test_digitalRead_dual_16 : after (step ((dual 0xFF#8 0 0xFF#8 0).present 0x30000010#32))
    (fun t => (t.pending, t.nextTag, t.outcomes)) = some ([], 0, [.invalidArgument .pinRange]) := by decide
/-- RS3 -/
theorem test_reset_dual : after (step ((dual 0xFF#8 0 0xFE#8 0x80#8).present 0x40000000#32))
    (fun t => (t.cache, t.pending)) = some (.dual ⟨0xFF#8, 0⟩ ⟨0xFF#8, 0⟩,
      [⟨0, .write 0x20#7 0x00#8 0xFF#8⟩, ⟨1, .write 0x20#7 0x01#8 0xFF#8⟩, ⟨2, .write 0x20#7 0x14#8 0⟩,
       ⟨3, .write 0x20#7 0x15#8 0⟩]) := by decide
/-- RS2 -/
theorem test_reset_fresh_still_issues : after (step ((single 0xFF#8 0).present 0x40000000#32))
    (fun t => t.pending) = some [⟨0, .write 0x20#7 0x00#8 0xFF#8⟩, ⟨1, .write 0x20#7 0x09#8 0⟩] := by decide
/-- DR2: byte 0xDF -/
theorem test_read_completes_false : after (transportStep 0 (.success 0xDF#8) oneRead)
    (fun t => (t.results, t.pending)) = some ([⟨0, .level false⟩], []) := by decide
/-- T4: a failed write leaves the cache and the ports alone and logs one event -/
theorem test_write_fails : after (transportStep 0 .failure State.reset)
    (fun t => (t.cache, t.outcomes, t.results, t.log.map LogEvent.kind)) =
      some (.single ⟨0xFF#8, 0⟩, [], [], [.writeFailed]) := by decide
/-- P3's last line, and the mark of R41 -/
theorem test_refused_word : after (step (State.reset.present 0x60000000#32))
    (fun t => (t.refused, t.outcomes, t.cache)) = some (true, [.refused], .single ⟨0xFF#8, 0⟩) := by decide
/-- R205 -/
theorem test_run_ends : (match step State.reset with | .fault .runEnded => true | _ => false) = true := by decide
set_option maxRecDepth 4000 in
/-- P3, lines 6 and 8: the assembler -/
theorem test_assemble_badval_and_word : assembleLines ["digitalWrite 2, BADVAL5 ; VALUE", "", ".word 0x60000000"] =
    some [0x20050002#32, 0x60000000#32] := by decide

/-! ### Witnesses: the hypotheses of each statement, met together -/

theorem witness_DecodeEncodeRoundTrip : (Instr.pinMode (.int (-32768)) .bad).wellFormed = true := by decide
theorem witness_DecodedCommandEncodesToItsWord :
    decode 0x1007FFFD#32 = .ok (.pinMode (.int (-3)) .bad) ∧ decode 0x3000FFFF#32 = .ok (.digitalRead (.int (-1))) ∧
    (∀ pin, Instr.digitalRead (.int (-1)) ≠ .pinMode pin .bad) ∧
    (∀ pin, Instr.digitalRead (.int (-1)) ≠ .digitalWrite pin .bad) := by
  refine ⟨by decide, by decide, by simp, by simp⟩
theorem witness_DecodeAgreesWithOpcodeMap :
    (⟨.reset, 0x40000000#32, 0xFFFFFFFF#32, false⟩ : OpcodeRow) ∈ opcodeMap ∧
    (⟨.reset, 0x40000000#32, 0xFFFFFFFF#32, false⟩ : OpcodeRow).accepts 0x40000000#32 = true := by decide
theorem witness_RefusedWordOnlySetsTheMark :
    (State.reset.present 0x60000000#32).turns = .command 0x60000000#32 :: [] ∧ ∀ i, decode 0x60000000#32 ≠ .ok i := by
  refine ⟨by decide, fun i h => ?_⟩
  rw [show decode 0x60000000#32 = .error .reservedOp by decide] at h
  cases h
theorem witness_RefusedMarkIsSticky :
    (∃ t, step (State.reset.present 0x60000000#32) = .next t ∧ State.reset.refused = false ∧ t.refused = true) ∧
    (∃ t, step (({ State.reset with refused := true } : State).present 0x40000000#32) = .next t) :=
  ⟨⟨_, rfl, by decide, by decide⟩, ⟨_, rfl⟩⟩
theorem witness_PinCheckVerdicts :
    (0 ≤ (0 : Int) ∧ (0 : Int) < 8) ∧ (0 ≤ (7 : Int) ∧ (7 : Int) < 8) ∧ ¬(0 ≤ (8 : Int) ∧ (8 : Int) < 8) ∧
    (0 ≤ (15 : Int) ∧ (15 : Int) < 16) ∧ ¬(0 ≤ (16 : Int) ∧ (16 : Int) < 16) ∧ ¬(0 ≤ (-1 : Int) ∧ (-1 : Int) < 16) ∧
    pinCheck State.reset.variant (.int 8) = some .pinRange ∧ pinCheck State.reset.variant .nonInt = some .pinType ∧
    Direction.input ≠ .bad ∧ WriteValue.num0 ≠ .bad := by decide
theorem witness_PinsResolveToDistinctPlaces :
    pinCheck .single (.int 0) = none ∧ pinCheck .single (.int 7) = none ∧
    pinCheck .dual (.int 7) = none ∧ (7 : Int) < 8 ∧ pinCheck .dual (.int 8) = none ∧ 8 ≤ (8 : Int) ∧
    pinCheck .dual (.int 15) = none ∧ resolve .dual 15 = resolve .dual 15 := by decide
theorem witness_LevelMapping :
    (polarity State.reset true true).settings.reverse = true ∧
    (polarity State.reset true true).settings.numericFollowsPolarity = true ∧
    State.reset.settings.reverse = false ∧ State.reset.settings.numericFollowsPolarity = false := by decide
theorem witness_MutatorSetsExactlyOneBit :
    (0xF7#8).getLsbD 3 = false ∧ (0xFF#8).getLsbD 3 ≠ false ∧ (2 : BitOffset) ≠ 3 := by decide
theorem witness_BitTestIsTheBit :
    (State.reset.settings.readFollowsPolarity && State.reset.settings.reverse) = false := by decide
theorem witness_PinModeSetsDirection :
    pinCheck (dual 0xFF#8 0 0xFF#8 0).variant (.int 15) = none ∧ dirBit .output = some false ∧
    resolve (dual 0xFF#8 0 0xFF#8 0).variant 15 = (.B, 7) ∧ (6 : BitOffset) ≠ 7 := by decide
theorem witness_PinModeFrame : ∃ t, exec (.pinMode (.int 3) .output) State.reset = .next t ∧
    pinCheck State.reset.variant (.int 3) = none ∧ resolve State.reset.variant 3 ≠ (.A, 2) :=
  ⟨_, rfl, by decide, by decide⟩
theorem witness_DigitalWriteSetsLevel :
    (pinCheck State.reset.variant (.int 7) = none ∧ levelOf State.reset.settings .num1 = some true ∧
      resolve State.reset.variant 7 = (.A, 7) ∧ (0 : BitOffset) ≠ 7) ∧
    (∃ s, construct Options.default = .next s ∧ Port.A ∈ s.variant.ports) :=
  ⟨by decide, ⟨_, rfl, by decide⟩⟩
theorem witness_DigitalWriteFrame : ∃ t, exec (.digitalWrite (.int 7) .boolTrue) State.reset = .next t ∧
    pinCheck State.reset.variant (.int 7) = none ∧ resolve State.reset.variant 7 ≠ (.A, 0) :=
  ⟨_, rfl, by decide, by decide⟩
theorem witness_DigitalReadIssuesOneRead :
    pinCheck State.reset.variant (.int 0) = none ∧ resolve State.reset.variant 0 = (.A, 0) := by decide
theorem witness_DigitalReadFrame : ∃ t, exec (.digitalRead (.int 8)) State.reset = .next t ∧
    pinCheck State.reset.variant (.int 8) ≠ none := ⟨_, rfl, by decide⟩
theorem witness_DigitalReadWorkedExample : State.reset.variant = .single ∧
    State.reset.settings.regs = RegTable.default ∧ State.reset.settings.readFollowsPolarity = false ∧
    State.reset.nextTag = 0 := by decide
theorem witness_ReadResultIgnoresTheCache :
    oneRead.settings = ({ oneRead with cache := .single ⟨0x00#8, 0x20#8⟩ } : State).settings ∧
    oneRead.pending = ({ oneRead with cache := .single ⟨0x00#8, 0x20#8⟩ } : State).pending ∧
    ∃ t, transportStep 0 (.success 0x20#8) oneRead = .next t := ⟨rfl, rfl, _, rfl⟩
theorem witness_ResetFrame : ∃ t, exec .reset State.reset = .next t := ⟨_, rfl⟩
theorem witness_ResetWorkedExample : (dual 0xFF#8 0 0xFE#8 0x80#8).cache = .dual ⟨0xFF#8, 0x00#8⟩ ⟨0xFE#8, 0x80#8⟩ ∧
    (dual 0xFF#8 0 0xFE#8 0x80#8).settings.regs = RegTable.default := by decide
theorem witness_InvalidArgumentIsANoOp : ∃ t, exec (.digitalWrite (.int 99) .bad) State.reset = .next t ∧
    t.outcomes = State.reset.outcomes ++ [.invalidArgument .value] := ⟨_, rfl, by decide⟩
theorem witness_ErrorPriority :
    (State.reset.present 0x60000000#32).turns = .command 0x60000000#32 :: [] ∧ ∀ i, decode 0x60000000#32 ≠ .ok i :=
  witness_RefusedWordOnlySetsTheMark
theorem witness_RepeatedCommandIssuesNothing :
    (∃ t u, exec (.pinMode (.int 5) .output) State.reset = .next t ∧ exec (.pinMode (.int 5) .output) t = .next u ∧
      t.cache ≠ State.reset.cache) ∧
    (∃ t u, exec (.digitalWrite (.int 6) .boolTrue) State.reset = .next t ∧
      exec (.digitalWrite (.int 6) .boolTrue) t = .next u ∧ t.cache ≠ State.reset.cache) ∧
    (∃ t, exec (.digitalRead (.int 6)) State.reset = .next t) :=
  ⟨⟨_, _, rfl, rfl, by decide⟩, ⟨_, _, rfl, rfl, by decide⟩, ⟨_, rfl⟩⟩
theorem witness_OneLanePerCommand :
    (∃ t, Instr.pinMode (.int 7) .output ≠ .reset ∧ exec (.pinMode (.int 7) .output) State.reset = .next t ∧
      Port.A ∈ State.reset.variant.ports ∧ (t.dir .A).getLsbD 7 ≠ (State.reset.dir .A).getLsbD 7) ∧
    (∃ t, Instr.digitalWrite (.int 8) .boolTrue ≠ .reset ∧
      exec (.digitalWrite (.int 8) .boolTrue) (dual 0xFF#8 0 0xFF#8 0) = .next t ∧
      Port.B ∈ (dual 0xFF#8 0 0xFF#8 0).variant.ports ∧
      (t.out .B).getLsbD 0 ≠ ((dual 0xFF#8 0 0xFF#8 0).out .B).getLsbD 0) ∧
    (∃ t, exec .reset State.reset = .next t) :=
  ⟨⟨_, by decide, rfl, by decide, by decide⟩, ⟨_, by decide, rfl, by decide, by decide⟩, ⟨_, rfl⟩⟩
theorem witness_CommandsIgnoreTheTransport : (single 0xFF#8 0).settings = State.reset.settings ∧
    (single 0xFF#8 0).cache = State.reset.cache ∧ (single 0xFF#8 0).nextTag = State.reset.nextTag ∧
    (single 0xFF#8 0).pending ≠ State.reset.pending := by decide

/-- The books are kept at reset, in T1's state, and with R143's read pending. -/
theorem witness_books : State.reset.BookKept ∧ (twoWrites false).BookKept ∧ oneRead.BookKept :=
  ⟨⟨by decide, by decide, by decide⟩, ⟨by decide, by decide, by decide⟩, ⟨by decide, by decide, by decide⟩⟩
theorem witness_IssueWriteIsFireAndForget : State.reset.BookKept ∧
    (⟨0, .write 0x20#7 0x00#8 0xFF#8⟩ : Entry) ∈ State.reset.pending ∧
    ∃ t, transportStep 0 .failure State.reset = .next t := ⟨witness_books.1, by decide, _, rfl⟩
theorem witness_TransportSelection : (¬∃ e ∈ State.reset.pending, e.index = 7) ∧
    (∃ e ∈ State.reset.pending, e.index = 1) ∧ State.reset.settings.transportInOrder = true ∧
    (∃ x ∈ State.reset.pending, x.index < 1) := by decide
theorem witness_write_completion : State.reset.BookKept ∧
    (⟨0, .write 0x20#7 0x00#8 0xFF#8⟩ : Entry) ∈ State.reset.pending ∧
    (State.reset.settings.transportInOrder = true → ∀ x ∈ State.reset.pending, 0 ≤ x.index) ∧
    (State.reset.withTurns [.complete 0 (.success 0)]).turns = .complete 0 (.success 0) :: [] ∧
    (State.reset.withTurns [.complete 0 .failure]).turns = .complete 0 .failure :: [] :=
  ⟨witness_books.1, by decide, by decide, rfl, rfl⟩
/-- The same for a state with the moves placed: WriteSuccessIsReceivedByTheChip and WriteFailureIsOnlyLogged. -/
theorem witness_write_completion_books : (State.reset.withTurns [.complete 0 (.success 0)]).BookKept ∧
    (State.reset.withTurns [.complete 0 .failure]).BookKept :=
  ⟨⟨by decide, by decide, by decide⟩, ⟨by decide, by decide, by decide⟩⟩
/-- ReadSuccessDeliversTheBit and ReadFailureReachesTheCaller. -/
theorem witness_read_completion : (oneRead.withTurns [.complete 0 (.success 0x20#8)]).BookKept ∧
    (oneRead.withTurns [.complete 0 .failure]).BookKept ∧
    (⟨0, .read 0x20#7 0x09#8 0 5⟩ : Entry) ∈ oneRead.pending ∧
    (oneRead.settings.transportInOrder = true → ∀ x ∈ oneRead.pending, 0 ≤ x.index) ∧
    (oneRead.withTurns [.complete 0 (.success 0x20#8)]).turns = .complete 0 (.success 0x20#8) :: [] ∧
    (oneRead.withTurns [.complete 0 .failure]).turns = .complete 0 .failure :: [] :=
  ⟨⟨by decide, by decide, by decide⟩, ⟨by decide, by decide, by decide⟩, by decide, by decide, rfl, rfl⟩
theorem witness_UnorderedTransportCanClobber :
    ((twoWrites false).withTurns [.complete 1 (.success 0), .complete 0 (.success 0)]).BookKept ∧
    (twoWrites false).settings.transportInOrder = false ∧
    (⟨0, .write 0x20#7 0x00#8 0xFE#8⟩ : Entry) ∈ (twoWrites false).pending ∧
    (⟨1, .write 0x20#7 0x00#8 0xFC#8⟩ : Entry) ∈ (twoWrites false).pending ∧ 0 < 1 ∧
    ((twoWrites false).withTurns [.complete 1 (.success 0), .complete 0 (.success 0)]).turns =
      .complete 1 (.success 0) :: .complete 0 (.success 0) :: [] :=
  ⟨⟨by decide, by decide, by decide⟩, by decide, by decide, by decide, by decide, rfl⟩
theorem witness_CacheEqualsLastIssuedWrite :
    (State.reset.present 0x10000003#32).WriteAddrsDistinct ∧ (State.reset.present 0x10000003#32).CacheTracksBus ∧
    ∃ t, step (State.reset.present 0x10000003#32) = .next t := ⟨by decide, by decide, _, rfl⟩
theorem witness_StepKeepsTheBooks : (State.reset.present 0x30000005#32).BookKept ∧
    ∃ t, step (State.reset.present 0x30000005#32) = .next t := ⟨⟨by decide, by decide, by decide⟩, _, rfl⟩
theorem witness_OnlyTheMappedRegistersAreReached : (State.reset.present 0x30000005#32).BookKept ∧
    (State.reset.present 0x30000005#32).WellAddressed ∧ ∃ t, step (State.reset.present 0x30000005#32) = .next t := by
  refine ⟨⟨by decide, by decide, by decide⟩, ⟨fun e he => ?_, fun d hd => by cases hd⟩, _, rfl⟩
  simp only [State.present, State.withTurns, State.reset, List.mem_cons, List.not_mem_nil, or_false] at he
  rcases he with rfl | rfl
  · exact ⟨rfl, by decide⟩
  · exact ⟨rfl, by decide⟩
theorem witness_InOrderTransportKeepsIssueOrder :
    ((twoWrites true).withTurns [.complete 0 (.success 0)]).BookKept ∧
    (twoWrites true).settings.transportInOrder = true ∧
    ((twoWrites true).withTurns [.complete 0 (.success 0)]).Settled 0x00#8 ∧
    ¬((twoWrites true).withTurns [.complete 0 (.success 0)]).NextFailsWriteTo 0x00#8 ∧
    ∃ t, step ((twoWrites true).withTurns [.complete 0 (.success 0)]) = .next t := by
  refine ⟨⟨by decide, by decide, by decide⟩, by decide, by decide, ?_, _, rfl⟩
  rintro ⟨index, rest, h, -⟩
  simp [State.withTurns] at h
theorem witness_DrainedChipAgreesWithCache :
    ({ State.reset with pending := [], delivered := [⟨0x20#7, 0x00#8, 0xFF#8⟩, ⟨0x20#7, 0x09#8, 0⟩] } :
      State).CacheTracksBus ∧ Port.A ∈ State.reset.variant.ports ∧
    ({ State.reset with pending := [], delivered := [⟨0x20#7, 0x00#8, 0xFF#8⟩, ⟨0x20#7, 0x09#8, 0⟩] } :
      State).Settled 0x00#8 ∧
    ({ State.reset with pending := [], delivered := [⟨0x20#7, 0x00#8, 0xFF#8⟩, ⟨0x20#7, 0x09#8, 0⟩] } :
      State).Settled 0x09#8 := by decide
/-- ConfigurationIsReadOnly and HistoriesOnlyGrow: a command, and a completion that removes a pending entry. -/
theorem witness_steps : (∃ t, step (State.reset.present 0x40000000#32) = .next t) ∧
    (∃ t, step (State.reset.withTurns [.complete 0 (.success 0)]) = .next t ∧
      (⟨0, .write 0x20#7 0x00#8 0xFF#8⟩ : Entry) ∈ State.reset.pending ∧
      (⟨0, .write 0x20#7 0x00#8 0xFF#8⟩ : Entry) ∉ t.pending) :=
  ⟨⟨_, rfl⟩, ⟨_, rfl, by decide, by decide⟩⟩
theorem witness_OnlyTheNamedCommandsWriteTheCache :
    (∃ t, step (State.reset.present 0x10000003#32) = .next t ∧ t.dir .A ≠ State.reset.dir .A) ∧
    (∃ t, step (State.reset.present 0x20010003#32) = .next t ∧ t.out .A ≠ State.reset.out .A) :=
  ⟨⟨_, rfl, by decide⟩, ⟨_, rfl, by decide⟩⟩
theorem witness_DebugHasNoEffect : State.reset.withoutDiagnostics =
    ({ State.reset with settings := { Settings.default with debug := true } } : State).withoutDiagnostics := by decide
theorem witness_StepRunsTheDecodedCommand :
    (State.reset.present 0x40000000#32).turns = .command 0x40000000#32 :: [] ∧ decode 0x40000000#32 = .ok .reset := by
  decide
theorem witness_RunEndsWhenNoMoveIsLeft : State.reset.turns = [] ∧
    (State.reset.present 0x60000000#32).turns = .command 0x60000000#32 :: [] := by decide
theorem witness_ConstructionState :
    (Options.default.address = .int 0x20 ∧ (0 : Int) ≤ 0x20 ∧ (0x20 : Int) ≤ 127) ∧
    (Options.default.bus = .absent ∧ (1 : Int) = 1) ∧ Options.default.reverse = .absent ∧
    Options.default.debug = .absent ∧ Options.default.busOpens = true ∧
    (({ Options.default with address := .int 127, bus := .int (-1), reverse := .bool true, debug := .bool true } :
      Options).address = .int 127 ∧ (127 : Int) ≤ 127) := by decide
/-- IllegalOptionsGiveNoInstance and ConstructionEstablishesTheInvariants; an address past the range is refused. -/
theorem witness_construction : (∃ s, construct Options.default = .next s ∧ s.WriteAddrsDistinct) ∧
    (match construct { Options.default with address := .int 128 } with
      | .refused .illegalAddress => true
      | _ => false) = true := ⟨⟨_, rfl, by decide⟩, by decide⟩

end Sys2Proof.Tests
end

section
/-! PROOFS. What the last issued write to a register is after each update, and that every step keeps R24's invariant. -/

namespace Sys2Proof.Machine

open Sys2Proof

/-! ### The last write issued to a register -/

@[simp] theorem State.lastIssued_setDir (s : State) (p : Port) (v : Byte) (reg : RegAddr) :
    (s.setDir p v).lastIssued reg = s.lastIssued reg := rfl

@[simp] theorem State.lastIssued_setOut (s : State) (p : Port) (v : Byte) (reg : RegAddr) :
    (s.setOut p v).lastIssued reg = s.lastIssued reg := rfl

@[simp] theorem State.lastIssued_emit (s : State) (o : PortOutcome) (reg : RegAddr) :
    (s.emit o).lastIssued reg = s.lastIssued reg := rfl

/-- After more transactions, the last write to a register is the last of theirs, or else the one before. -/
theorem Issues.lastIssued_eq {s t : State} {txns : List Transaction} (h : Issues s t txns) (reg : RegAddr) :
    t.lastIssued reg = (txns.filterMap (Transaction.writeTo? reg)).getLast?.or (s.lastIssued reg) := by
  rw [State.lastIssued, State.lastIssued, h.issued, writesTo_append, writesTo_numbered, List.getLast?_append]

/-- When all the new writes to a register carry one byte, and there is one, that byte is the last issued. -/
theorem Issues.lastIssued_of_unanimous {s t : State} {txns : List Transaction} {reg : RegAddr} {v : Byte}
    (h : Issues s t txns) (hmem : v ∈ txns.filterMap (Transaction.writeTo? reg))
    (hall : ∀ w ∈ txns.filterMap (Transaction.writeTo? reg), w = v) : t.lastIssued reg = some v := by
  have hlast := List.getLast?_eq_some_getLast (List.ne_nil_of_mem hmem)
  rw [h.lastIssued_eq, hlast, hall _ (List.getLast_mem _), Option.some_or]

/-- IssueWrite becomes the last write to its own register and to no other (R57). -/
@[simp] theorem State.lastIssued_issueWrite (s : State) (r reg : RegAddr) (v : Byte) :
    (s.issueWrite r v).lastIssued reg = if r = reg then some v else s.lastIssued reg := by
  have h : Issues s (s.issueWrite r v) [.write s.settings.address r v] := ⟨rfl, rfl⟩
  rw [h.lastIssued_eq]
  by_cases hr : r = reg <;> simp [hr]

/-- A read is a write to no register. -/
@[simp] theorem State.lastIssued_issueRead (s : State) (r reg : RegAddr) (b : BitOffset) :
    (s.issueRead r b).lastIssued reg = s.lastIssued reg := by
  have h : Issues s (s.issueRead r b) [.read s.settings.address r s.nextTag b] := ⟨rfl, rfl⟩
  simp [h.lastIssued_eq]

/-! ### Distinct written registers -/

/-- The settings and the variant fix the written registers. -/
theorem State.WriteAddrsDistinct.congr {s t : State} (h : s.WriteAddrsDistinct) (hs : t.settings = s.settings)
    (hv : t.variant = s.variant) : t.WriteAddrsDistinct := by
  have he : t.writeAddrs = s.writeAddrs := by simp [State.writeAddrs, State.regRow, hs, hv]
  rwa [State.WriteAddrsDistinct, he]

section
variable {s : State} {p q : Port}

/-- The written registers of two ports are apart. -/
theorem State.WriteAddrsDistinct.disjoint (h : s.WriteAddrsDistinct) (hp : p ∈ s.variant.ports)
    (hq : q ∈ s.variant.ports) (hne : p ≠ q) :
    List.Disjoint [s.regDir p, s.regOut p] [s.regDir q, s.regOut q] :=
  have : Std.Symm (Function.onFun List.Disjoint fun r => [s.regDir r, s.regOut r]) := ⟨fun _ _ => List.Disjoint.symm⟩
  (List.nodup_flatMap.mp h).2.forall hp hq hne

theorem State.WriteAddrsDistinct.regDir_ne (h : s.WriteAddrsDistinct) (hp : p ∈ s.variant.ports)
    (hq : q ∈ s.variant.ports) (hne : p ≠ q) : s.regDir p ≠ s.regDir q :=
  fun he => h.disjoint hp hq hne List.mem_cons_self (List.mem_pair.mpr (.inl he))

theorem State.WriteAddrsDistinct.regOut_ne (h : s.WriteAddrsDistinct) (hp : p ∈ s.variant.ports)
    (hq : q ∈ s.variant.ports) (hne : p ≠ q) : s.regOut p ≠ s.regOut q :=
  fun he => h.disjoint hp hq hne (List.mem_pair.mpr (.inr rfl)) (List.mem_pair.mpr (.inr he))

theorem State.WriteAddrsDistinct.regDir_ne_regOut (h : s.WriteAddrsDistinct) (hp : p ∈ s.variant.ports)
    (hq : q ∈ s.variant.ports) : s.regDir p ≠ s.regOut q := by
  by_cases hpq : p = q
  · subst hpq
    simpa using (List.nodup_flatMap.mp h).1 p hp
  · exact fun he => h.disjoint hp hq hpq List.mem_cons_self (List.mem_pair.mpr (.inr he))

end

/-! ### The cache and the last issued writes (R24) -/

section
variable {s t : State} {p : Port}

/-- R24's invariant looks only at the settings, the cache and what was issued. -/
theorem State.CacheTracksBus.congr (h : s.CacheTracksBus) (hs : t.settings = s.settings) (hc : t.cache = s.cache)
    (hi : t.issued = s.issued) : t.CacheTracksBus := by
  unfold State.CacheTracksBus State.lastIssued State.regDir State.regOut State.regRow State.dir State.out State.variant
  rw [hs, hc, hi]
  exact h

theorem State.CacheTracksBus.traced {body : State → State} (h : (body s.trace).CacheTracksBus) :
    (s.traced body).CacheTracksBus := h.congr (by simp) (by simp) (by simp)

/-- A direction byte put in the cache and issued: its register holds the byte last issued, and no other one changed. -/
theorem State.CacheTracksBus.setDir_issueWrite (h : s.CacheTracksBus) (hd : s.WriteAddrsDistinct)
    (hp : p ∈ s.variant.ports) (v : Byte) : ((s.setDir p v).issueWrite (s.regDir p) v).CacheTracksBus := by
  intro q hq
  replace hq : q ∈ s.variant.ports := by simpa using hq
  obtain ⟨hdir, hout⟩ := h q hq
  have hpo : (s.regRow p).dir ≠ (s.regRow q).output := hd.regDir_ne_regOut hp hq
  by_cases hqp : q = p
  · subst hqp
    simpa [hpo] using hout
  · have hpd : (s.regRow p).dir ≠ (s.regRow q).dir := hd.regDir_ne hp hq (Ne.symm hqp)
    simpa [hpd, hpo, s.setDir_dir_of_ne v hp hq hqp] using ⟨hdir, hout⟩

/-- The same for an output byte. -/
theorem State.CacheTracksBus.setOut_issueWrite (h : s.CacheTracksBus) (hd : s.WriteAddrsDistinct)
    (hp : p ∈ s.variant.ports) (v : Byte) : ((s.setOut p v).issueWrite (s.regOut p) v).CacheTracksBus := by
  intro q hq
  replace hq : q ∈ s.variant.ports := by simpa using hq
  obtain ⟨hdir, hout⟩ := h q hq
  have hpd : (s.regRow p).output ≠ (s.regRow q).dir := (hd.regDir_ne_regOut hq hp).symm
  by_cases hqp : q = p
  · subst hqp
    simpa [hpd] using hdir
  · have hpo : (s.regRow p).output ≠ (s.regRow q).output := hd.regOut_ne hp hq (Ne.symm hqp)
    simpa [hpd, hpo, s.setOut_out_of_ne v hp hq hqp] using ⟨hdir, hout⟩

/-- The bytes the init writes carry to a register (R150). -/
theorem mem_writes_initWrites {reg : RegAddr} {v : Byte} :
    v ∈ s.initWrites.filterMap (Transaction.writeTo? reg) ↔
      (∃ p ∈ s.variant.ports, s.regDir p = reg ∧ 0xFF#8 = v) ∨
      (∃ p ∈ s.variant.ports, s.regOut p = reg ∧ 0x00#8 = v) := by
  simp [State.initWrites]

/-- The init sequence makes R24's invariant hold, whatever the cache held before. -/
theorem State.WriteAddrsDistinct.initSequence_cacheTracksBus (hd : s.WriteAddrsDistinct) :
    s.initSequence.CacheTracksBus := by
  have spec := initSequence_spec s
  have hrow : ∀ p, s.initSequence.regRow p = s.regRow p := fun p => by
    simp [State.regRow, spec.settings, spec.variant]
  intro p hp
  rw [spec.variant] at hp
  obtain ⟨hdir, hout⟩ := spec.regs p hp
  rw [hdir, hout, State.regDir_eq, State.regOut_eq, hrow]
  refine ⟨spec.issues.lastIssued_of_unanimous (mem_writes_initWrites.mpr (.inl ⟨p, hp, rfl, rfl⟩)) fun w hw => ?_,
    spec.issues.lastIssued_of_unanimous (mem_writes_initWrites.mpr (.inr ⟨p, hp, rfl, rfl⟩)) fun w hw => ?_⟩
  · rcases mem_writes_initWrites.mp hw with ⟨_, _, _, rfl⟩ | ⟨q, hq, he, _⟩
    · rfl
    · exact absurd he.symm (hd.regDir_ne_regOut hp hq)
  · rcases mem_writes_initWrites.mp hw with ⟨q, hq, he, _⟩ | ⟨_, _, _, rfl⟩
    · exact absurd he (hd.regDir_ne_regOut hq hp)
    · rfl

/-- Every command's body keeps R24's invariant. -/
theorem State.CacheTracksBus.after_command (h : s.CacheTracksBus) (hd : s.WriteAddrsDistinct) (i : Instr) :
    (commandBody i s).CacheTracksBus := by
  cases i with
  | pinMode pin d =>
    rcases pinModeBody_cases pin d s with
      ⟨-, hb⟩ | ⟨_, _, -, -, hb⟩ | ⟨_, _, _, -, -, -, hb⟩ | ⟨_, p, b, -, hl, -, hb⟩ <;> rw [commandBody, hb]
    · exact h.congr rfl rfl rfl
    · exact h.congr rfl rfl rfl
    · exact h.congr rfl rfl rfl
    · exact (h.setDir_issueWrite hd (locate_port_mem hl) _).congr rfl rfl rfl
  | digitalWrite pin val =>
    rcases digitalWriteBody_cases pin val s with
      ⟨-, hb⟩ | ⟨_, _, -, -, hb⟩ | ⟨_, _, _, -, -, -, hb⟩ | ⟨_, p, b, -, hl, -, hb⟩ <;> rw [commandBody, hb]
    · exact h.congr rfl rfl rfl
    · exact h.congr rfl rfl rfl
    · exact h.congr rfl rfl rfl
    · exact (h.setOut_issueWrite hd (locate_port_mem hl) _).congr rfl rfl rfl
  | digitalRead pin =>
    rcases digitalReadBody_cases pin s with ⟨_, -, hb⟩ | ⟨p, b, -, hb⟩ <;> rw [commandBody, hb]
    · exact h.congr rfl rfl rfl
    · intro q hq
      simpa using h q hq
  | reset => exact hd.initSequence_cacheTracksBus.congr rfl rfl rfl

end

/-- A completion changes neither the settings, nor the cache, nor what was issued. -/
theorem transportStep_frame {index : Nat} {a : Answer} {s t : State} (h : transportStep index a s = .next t) :
    t.settings = s.settings ∧ t.cache = s.cache ∧ t.issued = s.issued := by
  obtain ⟨e, -, -, rfl⟩ := transportStep_cases h
  have hf := resolveTransaction_frame e.txn a (s.removePending index).trace
  exact ⟨by simp [hf.settings], by simp [hf.cache], by simp [hf.issued]⟩

/-- Settles O42: a command changes a cache register only together with the write it issues there, and a refused word or
a completion changes neither. -/
theorem cacheEqualsLastIssuedWrite : Obligations.CacheEqualsLastIssuedWrite := by
  intro s t hd h hstep
  rcases step_cases hstep with ⟨w, rest, i, -, -, hexec⟩ | ⟨w, rest, e, -, -, rfl⟩ | ⟨index, a, rest, -, hcomplete⟩
  · have hf := exec_frame hexec
    refine ⟨hd.congr hf.settings hf.variant, ?_⟩
    rw [exec_eq] at hexec
    cases hexec
    exact .traced ((h.congr (by simp) (by simp) (by simp)).after_command (hd.congr (by simp) (by simp)) i)
  · exact ⟨hd.congr (by simp) (by simp), h.congr (by simp) (by simp) (by simp)⟩
  · obtain ⟨hs, hc, hi⟩ := transportStep_frame hcomplete
    exact ⟨hd.congr hs (congrArg Cache.variant hc), h.congr hs hc hi⟩

end Sys2Proof.Machine
end

section
/-! PROOFS. digitalWrite on a valid pin (R26): the bit it sets, the transaction it issues, and the levels that reset and
construction set. -/

namespace Sys2Proof.Machine

open Sys2Proof

/-! ### The toggled bit (R105) -/

theorem mask_getLsbD (b j : BitOffset) : (mask b).getLsbD j.val = decide (j = b) := by
  revert b j
  decide

/-- XOR with the mask of an offset flips that bit and no other. -/
theorem getLsbD_xor_mask (reg : Byte) (b j : BitOffset) :
    (reg ^^^ mask b).getLsbD j.val = (reg.getLsbD j.val ^^ decide (j = b)) := by
  rw [BitVec.getLsbD_xor, mask_getLsbD]

/-! ### Logs -/

/-- A step gains what its body logs, between debug events. Unlike `State.traced_logGains` this asks about the body only at
the state it runs from, so it serves a body that logs in some states and not in others. -/
theorem LogGains.of_traced {s : State} {body : State → State} {mid : List LogEvent}
    (hlog : (body s.trace).log = s.trace.log ++ mid) (hset : (body s.trace).settings = s.settings) :
    LogGains s (s.traced body) (mid.map LogEvent.kind) := by
  obtain ⟨pre, hpre, hpd, hpn⟩ := s.trace_log
  obtain ⟨post, hpost, hqd, hqn⟩ := (body s.trace).trace_log
  refine ⟨pre, mid, post, by rw [State.traced, hpost, hlog, hpre], rfl, fun e he => ?_, fun h => ?_⟩
  · exact (List.mem_append.mp he).elim (hpd e) (hqd e)
  · rw [hpn h, hqn (by rw [hset, h]), List.append_nil]

/-! ### digitalWrite -/

/-- R130 on a valid pin and value: it finds the level already there, or toggles the bit and issues the whole byte. -/
theorem digitalWriteBody_of_valid {s : State} {k : Int} {val : WriteValue} {lvl : Bool} {p : Port} {b : BitOffset}
    (hpin : pinCheck s.variant (.int k) = none) (hlvl : levelOf s.settings val = some lvl)
    (hres : resolve s.variant k = (p, b)) :
    digitalWriteBody (.int k) val s =
      if (s.out p).getLsbD b.val = lvl then s.emit .ok
      else ((s.setOut p (s.out p ^^^ mask b)).issueWrite (s.regOut p) (s.out p ^^^ mask b)).emit .ok := by
  have hloc : locate s.variant (.int k) = .ok (p, b) := locate_eq_ok_iff.mpr ⟨k, rfl, hpin, hres⟩
  unfold digitalWriteBody
  rw [hlvl, hloc, ← bitAt_eq_getLsbD]
  by_cases hb : bitAt (s.out p) b = lvl <;> simp [mutate, hb]

/-- R26's first sentence, on the step of one valid digitalWrite. -/
theorem exec_digitalWrite_of_valid {s : State} {k : Int} {val : WriteValue} {lvl : Bool} {p : Port} {b : BitOffset}
    (hpin : pinCheck s.variant (.int k) = none) (hlvl : levelOf s.settings val = some lvl)
    (hres : resolve s.variant k = (p, b)) :
    ∃ t, exec (.digitalWrite (.int k) val) s = .next t ∧ (t.out p).getLsbD b.val = lvl ∧
      (∀ j : BitOffset, j ≠ b → (t.out p).getLsbD j.val = (s.out p).getLsbD j.val) ∧
      Issues s t (if (s.out p).getLsbD b.val = lvl then [] else [.write s.settings.address (s.regOut p) (t.out p)]) ∧
      t.outcomes = s.outcomes ++ [.ok] ∧ LogGains s t [] := by
  have hbody : commandBody (.digitalWrite (.int k) val) s.trace = _ :=
    digitalWriteBody_of_valid (s := s.trace) (by simpa using hpin) (by simpa using hlvl) (by simpa using hres)
  rw [State.trace_out] at hbody
  refine ⟨_, exec_eq _ s, ?_⟩
  split_ifs at hbody ⊢ with hb
  · have hout : (s.traced (commandBody (.digitalWrite (.int k) val))).out p = s.out p := by simp [hbody]
    rw [hout]
    exact ⟨hb, fun _ _ => rfl, .traced (hbody ▸ .refl_of_eq rfl rfl), by simp [hbody],
      .of_traced (mid := []) (by simp [hbody]) (by simp [hbody])⟩
  · have hout : (s.traced (commandBody (.digitalWrite (.int k) val))).out p = s.out p ^^^ mask b := by simp [hbody]
    rw [hout]
    refine ⟨?_, fun j hj => ?_, .traced ⟨by simp [hbody], by simp [hbody]⟩, by simp [hbody],
      .of_traced (mid := []) (by simp [hbody]) (by simp [hbody])⟩
    · rw [getLsbD_xor_mask, decide_eq_true rfl, Bool.xor_true, Bool.not_eq_eq_eq_not]
      exact Bool.eq_not.mpr hb
    · rw [getLsbD_xor_mask, decide_eq_false hj, Bool.xor_false]

/-! ### Construction -/

/-- R190: what construction answers is the blank state with the init sequence run on it. -/
theorem construct_cases {o : Options} {s : State} (h : construct o = .next s) :
    ∃ c : Settings, s = (State.blank o.variant c).traced State.initSequence := by
  unfold construct at h
  split at h
  iterate 4 cases h
  split at h
  · cases h
    exact ⟨_, rfl⟩
  · cases h

/-- Settles O18: after reset and after construction the levels are those of the init sequence. -/
theorem digitalWriteSetsLevel : Obligations.DigitalWriteSetsLevel := by
  refine ⟨fun s k val lvl p b => exec_digitalWrite_of_valid, fun s => ⟨_, exec_eq .reset s, fun p hp => ?_⟩,
    fun o s h p hp => ?_⟩
  · have hinit := (initSequence_spec s.trace).regs p (by simpa using hp)
    simpa [commandBody, resetBody] using hinit.2
  · obtain ⟨c, rfl⟩ := construct_cases h
    have spec := initSequence_spec (State.blank o.variant c).trace
    rw [State.traced_variant, spec.variant] at hp
    simpa using (spec.regs p hp).2

end Sys2Proof.Machine
end

section
/-! PROOFS. What a completion by the transport does (R61, R63, R64), and that a write is fire-and-forget (R57). -/

namespace Sys2Proof.Machine

open Sys2Proof

/-! ### The resolution of a transaction -/

/-- A resolution with trace points around it leaves alone the same fields as the resolution itself. -/
theorem CompletionFrame.of_traced (txn : Transaction) (a : Answer) (s : State) :
    CompletionFrame s (s.traced (resolveTransaction txn a)) := by
  have f := resolveTransaction_frame txn a s.trace
  exact ⟨by simp [f.settings], by simp [f.cache], by simp [f.busOpen], by simp [f.pending], by simp [f.nextTag],
    by simp [f.refused], by simp [f.outcomes], by simp [f.issued], by simp [f.turns]⟩

/-- What is delivered to the caller depends only on the settings and on what was delivered before. -/
theorem resolveTransaction_results_congr {s t : State} (txn : Transaction) (a : Answer) (hset : t.settings = s.settings)
    (hres : t.results = s.results) : (resolveTransaction txn a t).results = (resolveTransaction txn a s).results := by
  cases txn <;> cases a <;> simp [resolveTransaction, hset, hres]

/-- What the chip has received depends only on what it received before. -/
theorem resolveTransaction_delivered_congr {s t : State} (txn : Transaction) (a : Answer)
    (hdel : t.delivered = s.delivered) :
    (resolveTransaction txn a t).delivered = (resolveTransaction txn a s).delivered := by
  cases txn <;> cases a <;> simp [resolveTransaction, hdel]

/-- The resolution of a write delivers no result (R57, R61, R62). -/
theorem resolveTransaction_write_results (c : ChipAddr) (r : RegAddr) (v : Byte) (a : Answer) (s : State) :
    (resolveTransaction (.write c r v) a s).results = s.results := by
  cases a <;> rfl

/-- Only a failed write is logged (R62). -/
theorem resolveTransaction_log {txn : Transaction} {a : Answer} (h : ∀ c r v, txn = .write c r v → a ≠ .failure)
    (s : State) : (resolveTransaction txn a s).log = s.log := by
  rcases resolveTransaction_cases txn a s with
    ⟨_, _, _, _, -, -, hr⟩ | ⟨c, r, v, ht, ha, -⟩ | ⟨_, _, _, _, _, -, -, hr⟩ | ⟨_, _, _, _, -, -, hr⟩
  · rw [hr, State.receive_log]
  · exact absurd ha (h c r v ht)
  · rw [hr, State.deliver_log]
  · rw [hr, State.deliver_log]

/-! ### The step that completes a pending entry -/

/-- What the step that completes the pending entry `e` does, whatever its transaction and the answer: the entry is
removed, the block's state and the outcome port stay, the result port and the chip's receipts are the resolution's, and
nothing but a failed write is logged. -/
structure CompletesEntry (e : Entry) (a : Answer) (rest : List Turn) (s t : State) : Prop where
  pending : t.pending = s.pending.erase e
  settings : t.settings = s.settings
  cache : t.cache = s.cache
  busOpen : t.busOpen = s.busOpen
  nextTag : t.nextTag = s.nextTag
  refused : t.refused = s.refused
  outcomes : t.outcomes = s.outcomes
  issued : t.issued = s.issued
  turns : t.turns = rest
  results : t.results = (resolveTransaction e.txn a s).results
  delivered : t.delivered = (resolveTransaction e.txn a s).delivered
  log : (∀ c r v, e.txn = .write c r v → a ≠ .failure) → LogGains s t []

/-- R60–R64: a move that completes a pending entry the transport may select is a step, and completes that entry. -/
theorem State.BookKept.step_completesEntry {s : State} {e : Entry} {a : Answer} {rest : List Turn} (hb : s.BookKept)
    (he : e ∈ s.pending) (ho : s.settings.transportInOrder = true → ∀ x ∈ s.pending, e.index ≤ x.index)
    (ht : s.turns = .complete e.index a :: rest) : ∃ t, step s = .next t ∧ CompletesEntry e a rest s t := by
  have hstep := (step_of_complete ht).trans ((hb.withTurns rest).transportStep_eq he ho a)
  have f := CompletionFrame.of_traced e.txn a ((s.withTurns rest).removePending e.index)
  exact ⟨_, hstep,
    { pending := f.pending.trans ((hb.withTurns rest).removePending_eq he)
      settings := f.settings
      cache := f.cache
      busOpen := f.busOpen
      nextTag := f.nextTag
      refused := f.refused
      outcomes := f.outcomes
      issued := f.issued
      turns := f.turns
      results := by
        rw [State.traced_results]
        exact resolveTransaction_results_congr _ _ (by simp) (by simp)
      delivered := by
        rw [State.traced_delivered]
        exact resolveTransaction_delivered_congr _ _ (by simp)
      log := fun hlog => State.traced_logGains
        (fun u => ⟨[], by rw [resolveTransaction_log hlog, List.append_nil], rfl⟩)
        (fun u => (resolveTransaction_frame e.txn a u).settings) rfl rfl }⟩

/-! ### The statements -/

/-- Settles O37: the resolution of a successful write only adds to what the chip received. -/
theorem writeSuccessIsReceivedByTheChip : Obligations.WriteSuccessIsReceivedByTheChip := by
  intro s e rest c r v byte hb he hw ho ht
  obtain ⟨t, hstep, h⟩ := hb.step_completesEntry he ho ht
  have hdelivered : t.delivered = s.delivered ++ [⟨c, r, v⟩] := by rw [h.delivered, hw]; rfl
  have hresults : t.results = s.results := by rw [h.results, hw, resolveTransaction_write_results]
  exact ⟨t, hstep, hdelivered, h.pending, h.cache, h.settings, h.busOpen, h.nextTag, h.refused, h.outcomes, hresults,
    h.issued, h.turns, h.log (by simp)⟩

/-- Settles O39: the resolution of a successful read delivers the bit of R141, which is R106's bit test. -/
theorem readSuccessDeliversTheBit : Obligations.ReadSuccessDeliversTheBit := by
  intro s e rest c r tag b byte hb he hr ho ht
  obtain ⟨t, hstep, h⟩ := hb.step_completesEntry he ho ht
  have hlevel : readLevel s.settings byte b =
      (byte.getLsbD b.val ^^ (s.settings.readFollowsPolarity && s.settings.reverse)) := by
    simp [readLevel, bitAt_eq_getLsbD]
  have hresults : t.results = s.results ++ [⟨tag, .level (readLevel s.settings byte b)⟩] := by
    rw [h.results, hr]
    rfl
  have hdelivered : t.delivered = s.delivered := by rw [h.delivered, hr]; rfl
  exact ⟨t, hstep, hlevel ▸ hresults, h.pending, h.cache, h.settings, h.busOpen, h.nextTag, h.refused, h.outcomes,
    hdelivered, h.issued, h.turns, h.log (by simp)⟩

/-- Settles O40: the resolution of a failed read only delivers the failure under the read's tag. -/
theorem readFailureReachesTheCaller : Obligations.ReadFailureReachesTheCaller := by
  intro s e rest c r tag b hb he hr ho ht
  obtain ⟨t, hstep, h⟩ := hb.step_completesEntry he ho ht
  have hresults : t.results = s.results ++ [⟨tag, .transportFailure⟩] := by rw [h.results, hr]; rfl
  have hdelivered : t.delivered = s.delivered := by rw [h.delivered, hr]; rfl
  exact ⟨t, hstep, hresults, h.pending, h.cache, h.settings, h.busOpen, h.nextTag, h.refused, h.outcomes, hdelivered,
    h.issued, h.turns, h.log (by simp [hr])⟩

/-- Settles O35: the entry a completion selects by its issue index is the write itself, and the resolution of a write
reaches neither port. -/
theorem issueWriteIsFireAndForget : Obligations.IssueWriteIsFireAndForget := by
  refine ⟨fun _ _ _ => rfl, fun s t e c r v a hb he hw h => ?_⟩
  obtain ⟨x, hx, -, rfl⟩ := transportStep_cases h
  have hxe : x = e := hb.index_inj (List.mem_of_find?_eq_some hx) he (by simpa using List.find?_some hx)
  have f := CompletionFrame.of_traced x.txn a (s.removePending e.index)
  exact ⟨f.outcomes, by rw [State.traced_results, hxe, hw, resolveTransaction_write_results]; simp⟩

end Sys2Proof.Machine
end

section
/-! PROOFS. Repeating a command (R55): where its bit already stands, pinMode or digitalWrite issues nothing. -/

namespace Sys2Proof.Machine

open Sys2Proof

/-! ### Steps that issue nothing -/

/-- A step that issues no transaction and changes no cache register. -/
structure Quiet (s t : State) : Prop where
  issues : Issues s t []
  cache : t.cache = s.cache

theorem Quiet.raise (s : State) (c : Cause) : Quiet s (s.raise c) := ⟨.refl_of_eq rfl rfl, rfl⟩

theorem Quiet.emit (s : State) (o : PortOutcome) : Quiet s (s.emit o) := ⟨.refl_of_eq rfl rfl, rfl⟩

/-- A quiet step adds nothing to what was issued before it. -/
theorem Issues.trans_quiet {s t u : State} {txns : List Transaction} (h : Issues s t txns) (q : Quiet t u) :
    Issues s u txns := by
  constructor
  · rw [q.issues.pending, h.pending, numbered_nil, List.append_nil]
  · rw [q.issues.issued, h.issued, numbered_nil, List.append_nil]

/-- `Done` says of a state that the command has nothing left to do there: it looks only at the settings and the cache,
where it holds the command is quiet, and where it does not the command issues one transaction and makes it hold. -/
structure SettledBy (i : Instr) (Done : State → Prop) : Prop where
  congr : ∀ s t : State, t.settings = s.settings → t.cache = s.cache → Done s → Done t
  quiet : ∀ s, Done s → Quiet s (commandBody i s)
  acts : ∀ s, ¬Done s → (∃ x, Issues s (commandBody i s) [x]) ∧ Done (commandBody i s)

section
variable {i : Instr} {Done : State → Prop} {s t u : State}

theorem SettledBy.exec_quiet (h : SettledBy i Done) (hd : Done s) (he : exec i s = .next t) : Quiet s t := by
  rw [exec_eq] at he
  cases he
  have q := h.quiet s.trace (h.congr s _ (by simp) (by simp) hd)
  exact ⟨.traced q.issues, by simp [q.cache]⟩

theorem SettledBy.exec_acts (h : SettledBy i Done) (hd : ¬Done s) (he : exec i s = .next t) :
    (∃ x, Issues s t [x]) ∧ Done t := by
  rw [exec_eq] at he
  cases he
  obtain ⟨⟨x, hx⟩, hdone⟩ := h.acts s.trace fun hd' => hd (h.congr _ s (by simp) (by simp) hd')
  exact ⟨⟨x, .traced hx⟩, h.congr _ _ (by simp) (by simp) hdone⟩

/-- R55 for a command that settles: after one run it is done, so the second run is quiet; and the first run alone issued
a transaction, unless it was quiet as well. -/
theorem SettledBy.repeat_issues_nothing (h : SettledBy i Done) (h₁ : exec i s = .next t) (h₂ : exec i t = .next u) :
    Issues t u [] ∧ u.cache = t.cache ∧ (t.cache ≠ s.cache → ∃ x, Issues s u [x]) := by
  by_cases hd : Done s
  · have q := h.exec_quiet hd h₁
    have q' := h.exec_quiet (h.congr s t (exec_frame h₁).settings q.cache hd) h₂
    exact ⟨q'.issues, q'.cache, fun hne => absurd q.cache hne⟩
  · obtain ⟨⟨x, hx⟩, hdone⟩ := h.exec_acts hd h₁
    have q' := h.exec_quiet hdone h₂
    exact ⟨q'.issues, q'.cache, fun _ => ⟨x, hx.trans_quiet q'⟩⟩

end

/-! ### pinMode and digitalWrite settle -/

/-- XOR with the mask of an offset gives that bit the value it did not have. -/
theorem bitAt_xor_mask {reg : Byte} {b : BitOffset} {want : Bool} (h : bitAt reg b ≠ want) :
    bitAt (reg ^^^ mask b) b = want := by
  rw [bitAt_eq_getLsbD] at h ⊢
  rw [getLsbD_xor_mask, decide_eq_true rfl, Bool.xor_true]
  exact (Bool.eq_not.mpr h.symm).symm

/-- The pin's direction bit, where pin and direction are valid, is the one asked for. -/
def DirectionDone (pin : Pin) (d : Direction) (s : State) : Prop :=
  ∀ want p b, dirBit d = some want → locate s.variant pin = .ok (p, b) → bitAt (s.dir p) b = want

/-- The pin's output bit, where pin and value are valid, is the level asked for. -/
def LevelDone (pin : Pin) (val : WriteValue) (s : State) : Prop :=
  ∀ lvl p b, levelOf s.settings val = some lvl → locate s.variant pin = .ok (p, b) → bitAt (s.out p) b = lvl

theorem pinMode_settledBy (pin : Pin) (d : Direction) : SettledBy (.pinMode pin d) (DirectionDone pin d) where
  congr s t _ hc hd want p b hw hl := by
    have hbit := hd want p b hw (by rwa [State.variant, hc] at hl)
    rwa [State.dir, hc]
  quiet s hd := by
    rcases pinModeBody_cases pin d s with
      ⟨-, h⟩ | ⟨_, c, -, -, h⟩ | ⟨_, _, _, -, -, -, h⟩ | ⟨want, p, b, hw, hl, hne, h⟩ <;>
      rw [commandBody, h]
    · exact .raise s _
    · exact .raise s c
    · exact .emit s .ok
    · exact absurd (hd want p b hw hl) hne
  acts s hd := by
    unfold DirectionDone at hd
    push Not at hd
    obtain ⟨want, p, b, hw, hl, hne⟩ := hd
    have hbody : commandBody (.pinMode pin d) s =
        ((s.setDir p (s.dir p ^^^ mask b)).issueWrite (s.regDir p) (s.dir p ^^^ mask b)).emit .ok := by
      simp [commandBody, pinModeBody, mutate, hw, hl, hne]
    rw [hbody]
    refine ⟨⟨_, rfl, rfl⟩, fun want' p' b' hw' hl' => ?_⟩
    obtain rfl : want = want' := Option.some.inj (hw.symm.trans hw')
    obtain ⟨rfl, rfl⟩ : p = p' ∧ b = b' := by simpa [hl] using hl'
    simpa using bitAt_xor_mask hne

theorem digitalWrite_settledBy (pin : Pin) (val : WriteValue) :
    SettledBy (.digitalWrite pin val) (LevelDone pin val) where
  congr s t hs hc hd lvl p b hw hl := by
    have hbit := hd lvl p b (by rwa [hs] at hw) (by rwa [State.variant, hc] at hl)
    rwa [State.out, hc]
  quiet s hd := by
    rcases digitalWriteBody_cases pin val s with
      ⟨-, h⟩ | ⟨_, c, -, -, h⟩ | ⟨_, _, _, -, -, -, h⟩ | ⟨lvl, p, b, hw, hl, hne, h⟩ <;>
      rw [commandBody, h]
    · exact .raise s _
    · exact .raise s c
    · exact .emit s .ok
    · exact absurd (hd lvl p b hw hl) hne
  acts s hd := by
    unfold LevelDone at hd
    push Not at hd
    obtain ⟨lvl, p, b, hw, hl, hne⟩ := hd
    have hbody : commandBody (.digitalWrite pin val) s =
        ((s.setOut p (s.out p ^^^ mask b)).issueWrite (s.regOut p) (s.out p ^^^ mask b)).emit .ok := by
      simp [commandBody, digitalWriteBody, mutate, hw, hl, hne]
    rw [hbody]
    refine ⟨⟨_, rfl, rfl⟩, fun lvl' p' b' hw' hl' => ?_⟩
    obtain rfl : lvl = lvl' := Option.some.inj (hw.symm.trans hw')
    obtain ⟨rfl, rfl⟩ : p = p' ∧ b = b' := by simpa [hl] using hl'
    simpa using bitAt_xor_mask hne

/-! ### digitalRead and reset -/

/-- R140: digitalRead writes no cache register. -/
theorem exec_digitalRead_cache {pin : Pin} {s t : State} (h : exec (.digitalRead pin) s = .next t) :
    t.cache = s.cache := by
  rw [exec_eq] at h
  cases h
  rcases digitalReadBody_cases pin s.trace with ⟨c, -, hb⟩ | ⟨p, b, -, hb⟩ <;> simp [commandBody, hb]

/-- R150: a reset step issues the whole init sequence. -/
theorem exec_reset_issues (s : State) : ∃ t, exec .reset s = .next t ∧ Issues s t s.initWrites := by
  have hinit : s.trace.initWrites = s.initWrites := by simp [State.initWrites]
  have hissues := (initSequence_spec s.trace).issues
  rw [hinit] at hissues
  exact ⟨_, exec_eq .reset s, .traced ⟨hissues.pending, hissues.issued⟩⟩

/-- Settles O31: pinMode and digitalWrite settle, so their second run is quiet. -/
theorem repeatedCommandIssuesNothing : Obligations.RepeatedCommandIssuesNothing :=
  ⟨fun _ _ _ pin d => (pinMode_settledBy pin d).repeat_issues_nothing,
    fun _ _ _ pin val => (digitalWrite_settledBy pin val).repeat_issues_nothing,
    fun _ _ _ => exec_digitalRead_cache, exec_reset_issues⟩

end Sys2Proof.Machine
end

section
/-! PROOFS. The decoder of R89 against the opcode map of R87: both say which fields of a word an operation fixes. -/

namespace Sys2Proof

/-! ### A word by its fields (R81) -/

@[simp] theorem opField_and (w m : Word) : opField (w &&& m) = opField w &&& opField m := BitVec.extractLsb'_and
@[simp] theorem z1Field_and (w m : Word) : z1Field (w &&& m) = z1Field w &&& z1Field m := BitVec.extractLsb'_and
@[simp] theorem pkField_and (w m : Word) : pkField (w &&& m) = pkField w &&& pkField m := BitVec.extractLsb'_and
@[simp] theorem z2Field_and (w m : Word) : z2Field (w &&& m) = z2Field w &&& z2Field m := BitVec.extractLsb'_and
@[simp] theorem argField_and (w m : Word) : argField (w &&& m) = argField w &&& argField m := BitVec.extractLsb'_and
@[simp] theorem pinField_and (w m : Word) : pinField (w &&& m) = pinField w &&& pinField m := BitVec.extractLsb'_and

/-- The six fields of R81, in order, are the whole word. -/
theorem fields_append (w : Word) :
    opField w ++ z1Field w ++ pkField w ++ z2Field w ++ argField w ++ pinField w = w := by
  simp only [opField, z1Field, pkField, z2Field, argField, pinField,
    BitVec.extractLsb'_append_extractLsb'_eq_extractLsb']
  exact BitVec.extractLsb'_eq_self

/-- Words with the same six fields are the same word. -/
theorem eq_iff_fields (w v : Word) :
    w = v ↔ opField w = opField v ∧ z1Field w = z1Field v ∧ pkField w = pkField v ∧
      z2Field w = z2Field v ∧ argField w = argField v ∧ pinField w = pinField v := by
  refine ⟨fun h => by simp [h], fun ⟨hop, hz1, hpk, hz2, harg, hpin⟩ => ?_⟩
  rw [← fields_append w, ← fields_append v, hop, hz1, hpk, hz2, harg, hpin]

/-- A masked word is compared field by field. -/
theorem and_eq_iff_fields (w m p : Word) :
    w &&& m = p ↔ opField w &&& opField m = opField p ∧ z1Field w &&& z1Field m = z1Field p ∧
      pkField w &&& pkField m = pkField p ∧ z2Field w &&& z2Field m = z2Field p ∧
      argField w &&& argField m = argField p ∧ pinField w &&& pinField m = pinField p := by
  simp [eq_iff_fields (w &&& m)]

/-! ### What an operation asks of a word -/

/-- What R89 asks of a word beyond OP, Z1, Z2 and the pin operand. -/
def Operation.RestFits : Operation → Word → Prop
  | .pinMode, _ => True
  | .digitalWrite, _ => True
  | .digitalRead, w => argField w = 0#4
  | .reset, w => w = 0x40000000#32

/-- R89: what a word must hold to spell the operation. -/
structure Operation.Spells (op : Operation) (w : Word) : Prop where
  z1 : z1Field w = 0#4
  z2 : z2Field w = 0#2
  checks : pinChecksPass w = true
  code : opField w = op.code
  rest : op.RestFits w

/-! ### The decoder (R89) -/

/-- The pin operand is read exactly when R87's extra checks pass. -/
theorem exists_decodePin_iff (w : Word) :
    (∃ pin, decodePin (pkField w) (pinField w) = .ok pin) ↔ pinChecksPass w = true := by
  unfold decodePin pinChecksPass
  split_ifs <;> simp_all

/-- R89's case on OP. -/
theorem exists_decodeOp_iff (w : Word) (pin : Pin) (op : Operation) :
    (∃ i, decodeOp w pin = .ok i ∧ i.operation = op) ↔ opField w = op.code ∧ op.RestFits w := by
  unfold decodeOp
  split_ifs <;> cases op <;> simp_all [Instr.operation, Operation.code, Operation.RestFits]

/-- A word decodes when its reserved fields are zero, its pin operand is read, and the case on OP answers. -/
theorem decode_eq_ok_iff (w : Word) (i : Instr) :
    decode w = .ok i ↔ z1Field w = 0#4 ∧ z2Field w = 0#2 ∧
      ∃ pin, decodePin (pkField w) (pinField w) = .ok pin ∧ decodeOp w pin = .ok i := by
  unfold decode
  split_ifs with hz
  · cases decodePin (pkField w) (pinField w) <;> simp [hz]
  · simp only [false_iff]
    exact fun ⟨hz1, hz2, _⟩ => hz ⟨hz1, hz2⟩

/-- The decoder answers an operation exactly when the word spells it. -/
theorem exists_decode_iff_spells (w : Word) (op : Operation) :
    (∃ i, decode w = .ok i ∧ i.operation = op) ↔ op.Spells w := by
  constructor
  · rintro ⟨i, hd, hi⟩
    obtain ⟨hz1, hz2, pin, hpin, hop⟩ := (decode_eq_ok_iff w i).1 hd
    obtain ⟨hcode, hrest⟩ := (exists_decodeOp_iff w pin op).1 ⟨i, hop, hi⟩
    exact ⟨hz1, hz2, (exists_decodePin_iff w).1 ⟨pin, hpin⟩, hcode, hrest⟩
  · rintro ⟨hz1, hz2, hchecks, hcode, hrest⟩
    obtain ⟨pin, hpin⟩ := (exists_decodePin_iff w).2 hchecks
    obtain ⟨i, hop, hi⟩ := (exists_decodeOp_iff w pin op).2 ⟨hcode, hrest⟩
    exact ⟨i, (decode_eq_ok_iff w i).2 ⟨hz1, hz2, pin, hpin, hop⟩, hi⟩

/-! ### The opcode map (R87, R88) -/

theorem OpcodeRow.accepts_iff (r : OpcodeRow) (w : Word) :
    r.accepts w = true ↔ w &&& r.mask = r.pattern ∧ (r.pinChecks = true → pinChecksPass w = true) := by
  cases h : r.pinChecks <;> simp [OpcodeRow.accepts, h]

/-- R87: a mask that covers OP, Z1 and Z2 but not PK and PIN fixes those three fields, and what it covers of ARG. -/
theorem and_mask_eq_makeWord_iff (w : Word) {m : Word} (op : BitVec 4) (hop : opField m = BitVec.allOnes 4)
    (hz1 : z1Field m = BitVec.allOnes 4) (hpk : pkField m = 0#2) (hz2 : z2Field m = BitVec.allOnes 2)
    (hpin : pinField m = 0#16) :
    w &&& m = makeWord op 0#2 0#4 0#16 ↔
      opField w = op ∧ z1Field w = 0#4 ∧ z2Field w = 0#2 ∧ argField w &&& argField m = 0#4 := by
  simp [and_eq_iff_fields, hop, hz1, hpk, hz2, hpin, -BitVec.reduceAllOnes]

/-- R87: what each row's mask and match fix, beside the extra checks. -/
theorem OpcodeRow.and_mask_eq_pattern_iff {r : OpcodeRow} (hr : r ∈ opcodeMap) (w : Word) :
    w &&& r.mask = r.pattern ↔
      opField w = r.operation.code ∧ z1Field w = 0#4 ∧ z2Field w = 0#2 ∧ r.operation.RestFits w := by
  simp only [opcodeMap, List.mem_cons, List.not_mem_nil, or_false] at hr
  obtain rfl | rfl | rfl | rfl := hr
  case inl =>
    refine (and_mask_eq_makeWord_iff w Operation.pinMode.code rfl rfl rfl rfl rfl).trans ?_
    simp [show argField 0xFF300000#32 = 0#4 from rfl, Operation.RestFits]
  case inr.inl =>
    refine (and_mask_eq_makeWord_iff w Operation.digitalWrite.code rfl rfl rfl rfl rfl).trans ?_
    simp [show argField 0xFF300000#32 = 0#4 from rfl, Operation.RestFits]
  case inr.inr.inl =>
    refine (and_mask_eq_makeWord_iff w Operation.digitalRead.code rfl rfl rfl rfl rfl).trans ?_
    rw [show argField 0xFF3F0000#32 = BitVec.allOnes 4 from rfl, BitVec.and_allOnes, Operation.RestFits]
  case inr.inr.inr =>
    rw [show w &&& 0xFFFFFFFF#32 = w from BitVec.and_allOnes]
    refine ⟨fun h => ?_, fun ⟨_, _, _, h⟩ => h⟩
    subst h
    exact ⟨by decide, by decide, by decide, rfl⟩

/-- R87: every row has the extra checks but reset's, whose one word passes them. -/
theorem OpcodeRow.pinChecksPass_of_restFits {r : OpcodeRow} (hr : r ∈ opcodeMap) {w : Word}
    (hrest : r.operation.RestFits w) (hchecks : r.pinChecks = true → pinChecksPass w = true) :
    pinChecksPass w = true := by
  have hreset : ∀ q ∈ opcodeMap, q.pinChecks = true ∨ q.operation = .reset := by decide
  rcases hreset r hr with h | h
  · exact hchecks h
  · rw [h] at hrest
    obtain rfl : w = 0x40000000#32 := hrest
    decide

/-- A row accepts exactly the words that spell its operation. -/
theorem OpcodeRow.accepts_iff_spells {r : OpcodeRow} (hr : r ∈ opcodeMap) (w : Word) :
    r.accepts w = true ↔ r.operation.Spells w := by
  rw [r.accepts_iff, r.and_mask_eq_pattern_iff hr]
  constructor
  · rintro ⟨⟨hcode, hz1, hz2, hrest⟩, hchecks⟩
    exact ⟨hz1, hz2, OpcodeRow.pinChecksPass_of_restFits hr hrest hchecks, hcode, hrest⟩
  · rintro ⟨hz1, hz2, hchecks, hcode, hrest⟩
    exact ⟨⟨hcode, hz1, hz2, hrest⟩, fun _ => hchecks⟩

/-- Every operation has a row. -/
theorem Operation.exists_row (op : Operation) : ∃ r ∈ opcodeMap, r.operation = op := by
  cases op <;> decide

/-- R88: the rows differ in OP. -/
theorem opcodeMap_nodup_code : (opcodeMap.map (·.operation.code)).Nodup := by decide

/-- Settles O3: the decoder answers an operation on the words that spell it, its row accepts the same words, and two rows
that accept one word agree in its OP. -/
theorem decodeAgreesWithOpcodeMap : Obligations.DecodeAgreesWithOpcodeMap := by
  refine ⟨fun w op => (exists_decode_iff_spells w op).trans ⟨fun h => ?_, ?_⟩, fun w r q hr hq hrw hqw => ?_⟩
  · obtain ⟨r, hr, rfl⟩ := op.exists_row
    exact ⟨r, hr, rfl, (OpcodeRow.accepts_iff_spells hr w).2 h⟩
  · rintro ⟨r, hr, rfl, hrw⟩
    exact (OpcodeRow.accepts_iff_spells hr w).1 hrw
  · have hrop := ((OpcodeRow.accepts_iff_spells hr w).1 hrw).code
    have hqop := ((OpcodeRow.accepts_iff_spells hq w).1 hqw).code
    exact List.inj_on_of_nodup_map opcodeMap_nodup_code hr hq (hrop.symm.trans hqop)

end Sys2Proof
end

section
/-! PROOFS. The shared functions of 40_common.md: where a pin lies (R101), the mask, the bit test and the mutator (R102,
R105, R106), and what pinMode does with a bad direction (R103). -/

namespace Sys2Proof.Machine

open Sys2Proof

/-! ### Pins and their places (R100, R101) -/

theorem pinCheck_int_eq_none_iff (v : Variant) (k : Int) :
    pinCheck v (.int k) = none ↔ 0 ≤ k ∧ k < (v.npins : Int) := by
  simp [pinCheck]

@[simp] theorem npins_single : Variant.npins .single = 8 := rfl

@[simp] theorem npins_dual : Variant.npins .dual = 16 := rfl

theorem bitOffsetOf_val {k : Int} (h₀ : 0 ≤ k) (h₈ : k < 8) : ((bitOffsetOf k).val : Int) = k := by
  rw [bitOffsetOf, Fin.val_ofNat]
  omega

theorem resolve_single (k : Int) : resolve .single k = (.A, bitOffsetOf k) := rfl

theorem resolve_dual_of_lt {k : Int} (h : k < 8) : resolve .dual k = (.A, bitOffsetOf k) := if_pos h

theorem resolve_dual_of_le {k : Int} (h : 8 ≤ k) : resolve .dual k = (.B, bitOffsetOf (k - 8)) :=
  if_neg (Int.not_lt.mpr h)

/-- The pin number of a port's bit 0. -/
def firstPin : Port → Int
  | .A => 0
  | .B => 8

/-- A valid pin is recovered from the place it resolves to. -/
theorem firstPin_add_offset_resolve {v : Variant} {k : Int} (h : pinCheck v (.int k) = none) :
    firstPin (resolve v k).1 + ((resolve v k).2.val : Int) = k := by
  obtain ⟨h₀, hn⟩ := (pinCheck_int_eq_none_iff v k).mp h
  cases v with
  | single =>
    rw [npins_single] at hn
    rw [resolve_single, bitOffsetOf_val h₀ hn, firstPin, Int.zero_add]
  | dual =>
    rw [npins_dual] at hn
    rcases lt_or_ge k 8 with h₈ | h₈
    · rw [resolve_dual_of_lt h₈, bitOffsetOf_val h₀ h₈, firstPin, Int.zero_add]
    · rw [resolve_dual_of_le h₈, bitOffsetOf_val (by omega) (by omega), firstPin]
      omega

/-- Settles O9: the port is the branch of R101, and a pin's number is recovered from its port and its offset, which
gives the offset and that no two valid pins share a place. -/
theorem pinsResolveToDistinctPlaces : Obligations.PinsResolveToDistinctPlaces := by
  refine ⟨fun k hk => ⟨rfl, ?_⟩, fun k hk => ⟨fun h₈ => ?_, fun h₈ => ?_⟩, resolve_port_mem,
    fun v j k hj hk hjk => ?_⟩
  · simpa [resolve_single, firstPin] using firstPin_add_offset_resolve hk
  · simpa [resolve_dual_of_lt h₈, firstPin] using firstPin_add_offset_resolve hk
  · have hpin := firstPin_add_offset_resolve hk
    rw [resolve_dual_of_le h₈] at hpin ⊢
    exact ⟨rfl, eq_sub_of_add_eq' hpin⟩
  · rw [← firstPin_add_offset_resolve hj, hjk, firstPin_add_offset_resolve hk]

/-! ### Masks and bits (R102, R105, R106) -/

/-- Settles O10. -/
theorem maskHasExactlyOneBit : Obligations.MaskHasExactlyOneBit :=
  fun b => ⟨rfl, fun j => by rw [mask_getLsbD, decide_eq_true_iff]⟩

/-- Settles O14: without inversion R141's value is R106's bit. -/
theorem bitTestIsTheBit : Obligations.BitTestIsTheBit := by
  refine ⟨fun byte b => ⟨?_, bitAt_eq_getLsbD byte b⟩, fun c byte b hc => ?_⟩
  · rw [bitAt, beq_iff_eq]
  · rw [readLevel, hc, Bool.xor_false, beq_true]

theorem mutate_of_eq {reg : Byte} {b : BitOffset} {want : Bool} (h : reg.getLsbD b.val = want) :
    mutate reg b want = (reg, false) := if_pos ((bitAt_eq_getLsbD reg b).trans h)

theorem mutate_of_ne {reg : Byte} {b : BitOffset} {want : Bool} (h : reg.getLsbD b.val ≠ want) :
    mutate reg b want = (reg ^^^ mask b, true) := if_neg (by rwa [bitAt_eq_getLsbD])

/-- A bit that XOR with the mask of an offset changed is that offset's. -/
theorem getLsbD_xor_mask_ne_iff (reg : Byte) (b j : BitOffset) :
    (reg ^^^ mask b).getLsbD j.val ≠ reg.getLsbD j.val ↔ j = b := by
  rw [getLsbD_xor_mask]
  cases reg.getLsbD j.val <;> simp

/-- The mutator gives bit `b` the wanted value and keeps every other bit. -/
theorem getLsbD_mutate (reg : Byte) (b j : BitOffset) (want : Bool) :
    (mutate reg b want).1.getLsbD j.val = if j = b then want else reg.getLsbD j.val := by
  by_cases h : reg.getLsbD b.val = want
  · rw [mutate_of_eq h]
    split_ifs with hj
    exacts [hj ▸ h, rfl]
  · rw [mutate_of_ne h]
    split_ifs with hj
    · rw [hj, ← bitAt_eq_getLsbD, bitAt_xor_mask (by rwa [bitAt_eq_getLsbD])]
    · exact not_ne_iff.mp (mt (getLsbD_xor_mask_ne_iff reg b j).mp hj)

theorem mutate_changed_iff (reg : Byte) (b : BitOffset) (want : Bool) :
    (mutate reg b want).2 = true ↔ reg.getLsbD b.val ≠ want := by
  by_cases h : reg.getLsbD b.val = want
  · rw [mutate_of_eq h]
    exact iff_of_false Bool.false_ne_true (not_not_intro h)
  · rw [mutate_of_ne h]
    exact iff_of_true rfl h

/-- The mutator changes the byte exactly where the bit was not the wanted one: it changes no other bit. -/
theorem mutate_ne_iff (reg : Byte) (b : BitOffset) (want : Bool) :
    (mutate reg b want).1 ≠ reg ↔ reg.getLsbD b.val ≠ want := by
  refine ⟨fun hne h => hne (by rw [mutate_of_eq h]), fun h hreg => h ?_⟩
  have hbit := getLsbD_mutate reg b b want
  rwa [hreg, if_pos rfl] at hbit

/-- Settles O13. -/
theorem mutatorSetsExactlyOneBit : Obligations.MutatorSetsExactlyOneBit :=
  fun reg b want => ⟨mutate_of_eq, mutate_of_ne, by rw [getLsbD_mutate, if_pos rfl],
    fun j hj => by rw [getLsbD_mutate, if_neg hj], mutate_changed_iff reg b want,
    (mutate_ne_iff reg b want).trans (mutate_changed_iff reg b want).symm⟩

/-! ### A rejected command (R161) and a bad direction (R103) -/

theorem NoEffect.traced_of_raise {s : State} {c : Cause} {body : State → State} (h : body s.trace = s.trace.raise c) :
    NoEffect s (s.traced body) := by
  constructor <;> simp [h]

/-- R161: a command whose body raises completes with the cause and has no other effect. -/
theorem exec_of_raise {i : Instr} {s : State} {c : Cause} (h : commandBody i s.trace = s.trace.raise c) :
    ∃ t, exec i s = .next t ∧ t.outcomes = s.outcomes ++ [.invalidArgument c] ∧ NoEffect s t :=
  ⟨_, exec_eq i s, by simp [h], .traced_of_raise h⟩

/-- Settles O11: a bad direction has no bit, so pinMode raises before it looks at the pin. -/
theorem directionBits : Obligations.DirectionBits :=
  ⟨rfl, rfl, rfl, fun _ _ => exec_of_raise rfl⟩

end Sys2Proof.Machine
end

section
/-! PROOFS. A command changes no lane but the one its operands name, and reset sets every lane (R108). -/

namespace Sys2Proof.Machine

open Sys2Proof

/-! ### What a command's body leaves alone in the cache -/

theorem pinModeBody_out (pin : Pin) (d : Direction) (s : State) (q : Port) :
    (pinModeBody pin d s).out q = s.out q := by
  rcases pinModeBody_cases pin d s with ⟨-, h⟩ | ⟨_, _, -, -, h⟩ | ⟨_, _, _, -, -, -, h⟩ | ⟨_, _, _, -, -, -, h⟩ <;>
    simp [h]

theorem digitalWriteBody_dir (pin : Pin) (val : WriteValue) (s : State) (q : Port) :
    (digitalWriteBody pin val s).dir q = s.dir q := by
  rcases digitalWriteBody_cases pin val s with
    ⟨-, h⟩ | ⟨_, _, -, -, h⟩ | ⟨_, _, _, -, -, -, h⟩ | ⟨_, _, _, -, -, -, h⟩ <;> simp [h]

/-! ### The lane a command's body changes -/

section
variable {s : State} {p q : Port} {b j : BitOffset}

/-- Toggling one bit of a direction register changes no other direction lane. -/
theorem State.setDir_xor_mask_lane (hp : p ∈ s.variant.ports) (hq : q ∈ s.variant.ports)
    (hne : ((s.setDir p (s.dir p ^^^ mask b)).dir q).getLsbD j.val ≠ (s.dir q).getLsbD j.val) : (p, b) = (q, j) := by
  by_cases hqp : q = p
  · subst hqp
    rw [State.setDir_dir, getLsbD_xor_mask_ne_iff] at hne
    rw [hne]
  · exact absurd (by rw [State.setDir_dir_of_ne s _ hp hq hqp]) hne

/-- Toggling one bit of an output register changes no other output lane. -/
theorem State.setOut_xor_mask_lane (hp : p ∈ s.variant.ports) (hq : q ∈ s.variant.ports)
    (hne : ((s.setOut p (s.out p ^^^ mask b)).out q).getLsbD j.val ≠ (s.out q).getLsbD j.val) : (p, b) = (q, j) := by
  by_cases hqp : q = p
  · subst hqp
    rw [State.setOut_out, getLsbD_xor_mask_ne_iff] at hne
    rw [hne]
  · exact absurd (by rw [State.setOut_out_of_ne s _ hp hq hqp]) hne

/-- A direction lane that pinMode changes is its pin's. -/
theorem pinModeBody_dir_lane {pin : Pin} {d : Direction} (hq : q ∈ s.variant.ports)
    (hne : ((pinModeBody pin d s).dir q).getLsbD j.val ≠ (s.dir q).getLsbD j.val) :
    locate s.variant pin = .ok (q, j) := by
  rcases pinModeBody_cases pin d s with
    ⟨-, h⟩ | ⟨_, _, -, -, h⟩ | ⟨_, _, _, -, -, -, h⟩ | ⟨_, p, b, -, hl, -, h⟩ <;> rw [h] at hne
  iterate 3 exact absurd rfl hne
  rw [hl, State.setDir_xor_mask_lane (locate_port_mem hl) hq hne]

/-- An output lane that digitalWrite changes is its pin's. -/
theorem digitalWriteBody_out_lane {pin : Pin} {val : WriteValue} (hq : q ∈ s.variant.ports)
    (hne : ((digitalWriteBody pin val s).out q).getLsbD j.val ≠ (s.out q).getLsbD j.val) :
    locate s.variant pin = .ok (q, j) := by
  rcases digitalWriteBody_cases pin val s with
    ⟨-, h⟩ | ⟨_, _, -, -, h⟩ | ⟨_, _, _, -, -, -, h⟩ | ⟨_, p, b, -, hl, -, h⟩ <;> rw [h] at hne
  iterate 3 exact absurd rfl hne
  rw [hl, State.setOut_xor_mask_lane (locate_port_mem hl) hq hne]

end

/-! ### The lane a command changes -/

section
variable {i : Instr} {s t : State} {q : Port} {j : BitOffset}

/-- Only pinMode, on a valid pin, changes a direction lane, and that pin's. -/
theorem exec_dir_lane (hi : i ≠ .reset) (he : exec i s = .next t) (hq : q ∈ s.variant.ports)
    (hne : (t.dir q).getLsbD j.val ≠ (s.dir q).getLsbD j.val) :
    ∃ k d, i = .pinMode (.int k) d ∧ pinCheck s.variant (.int k) = none ∧ resolve s.variant k = (q, j) := by
  cases i with
  | pinMode pin d =>
    rw [exec_eq] at he
    cases he
    have hloc := pinModeBody_dir_lane (s := s.trace) (pin := pin) (d := d) (by simpa using hq)
      (by simpa [commandBody] using hne)
    rw [State.trace_variant, locate_eq_ok_iff] at hloc
    obtain ⟨k, rfl, hpin, hres⟩ := hloc
    exact ⟨k, d, rfl, hpin, hres⟩
  | digitalWrite pin val =>
    rw [exec_eq] at he
    cases he
    exact absurd (by simp [commandBody, digitalWriteBody_dir]) hne
  | digitalRead pin => exact absurd (by rw [State.dir, exec_digitalRead_cache he, State.dir]) hne
  | reset => exact absurd rfl hi

/-- Only digitalWrite, on a valid pin, changes an output lane, and that pin's. -/
theorem exec_out_lane (hi : i ≠ .reset) (he : exec i s = .next t) (hq : q ∈ s.variant.ports)
    (hne : (t.out q).getLsbD j.val ≠ (s.out q).getLsbD j.val) :
    ∃ k val, i = .digitalWrite (.int k) val ∧ pinCheck s.variant (.int k) = none ∧ resolve s.variant k = (q, j) := by
  cases i with
  | pinMode pin d =>
    rw [exec_eq] at he
    cases he
    exact absurd (by simp [commandBody, pinModeBody_out]) hne
  | digitalWrite pin val =>
    rw [exec_eq] at he
    cases he
    have hloc := digitalWriteBody_out_lane (s := s.trace) (pin := pin) (val := val) (by simpa using hq)
      (by simpa [commandBody] using hne)
    rw [State.trace_variant, locate_eq_ok_iff] at hloc
    obtain ⟨k, rfl, hpin, hres⟩ := hloc
    exact ⟨k, val, rfl, hpin, hres⟩
  | digitalRead pin => exact absurd (by rw [State.out, exec_digitalRead_cache he, State.out]) hne
  | reset => exact absurd rfl hi

/-- R150: reset sets every register of every port. -/
theorem exec_reset_regs (he : exec .reset s = .next t) (hq : q ∈ s.variant.ports) :
    t.dir q = 0xFF#8 ∧ t.out q = 0x00#8 := by
  rw [exec_eq] at he
  cases he
  simpa [commandBody, resetBody] using (initSequence_spec s.trace).regs q (by simpa using hq)

end

/-- Settles O32. -/
theorem oneLanePerCommand : Obligations.OneLanePerCommand := by
  refine ⟨fun i s t hi he q hq j => ⟨exec_dir_lane hi he hq, exec_out_lane hi he hq⟩, fun s t he q hq j => ?_⟩
  obtain ⟨hdir, hout⟩ := exec_reset_regs he hq
  rw [hdir, hout]
  exact ⟨BitVec.getLsbD_allOnes.trans (decide_eq_true j.isLt), BitVec.getLsbD_zero⟩

end Sys2Proof.Machine
end

section
/-! PROOFS. pinMode where the mutator changes the direction byte (R120), and the source's example of it (R122). -/

namespace Sys2Proof.Machine

open Sys2Proof

section
variable {s : State} {pin : Pin} {d : Direction} {want : Bool} {p : Port} {b : BitOffset} {v : Byte}

/-- R120's last branch: the mutator answers a changed byte, which is stored and issued whole. -/
theorem pinModeBody_of_mutate_changed (hd : dirBit d = some want) (hloc : locate s.variant pin = .ok (p, b))
    (hmut : mutate (s.dir p) b want = (v, true)) :
    pinModeBody pin d s = ((s.setDir p v).issueWrite (s.regDir p) v).emit .ok := by
  simp [pinModeBody, hd, hloc, hmut]

/-- The same of the whole step: the new byte is the register's and the one write's, and the outcome is Ok. -/
theorem exec_pinMode_of_mutate_changed (hd : dirBit d = some want) (hloc : locate s.variant pin = .ok (p, b))
    (hmut : mutate (s.dir p) b want = (v, true)) :
    ∃ t, exec (.pinMode pin d) s = .next t ∧ t.dir p = v ∧
      Issues s t [.write s.settings.address (s.regDir p) v] ∧ t.outcomes = s.outcomes ++ [.ok] := by
  have hbody : commandBody (.pinMode pin d) s.trace = _ :=
    pinModeBody_of_mutate_changed (s := s.trace) hd (by simpa using hloc) (by simpa using hmut)
  exact ⟨_, exec_eq _ s, by simp [hbody], .traced ⟨by simp [hbody], by simp [hbody]⟩, by simp [hbody]⟩

end

/-- Settles O17: pin 3 of the fresh block is bit 3 of port A, whose 0xFF the mutator takes to 0xF7. -/
theorem pinModeWorkedExample : Obligations.PinModeWorkedExample := by
  have hmut : mutate 0xFF#8 3 false = (0xF7#8, true) := by decide
  have hloc : locate State.reset.variant (.int 3) = .ok (.A, 3) := locate_eq_ok_iff.mpr ⟨3, rfl, by decide, by decide⟩
  exact ⟨hmut, exec_pinMode_of_mutate_changed rfl hloc hmut⟩

end Sys2Proof.Machine
end

section
/-! PROOFS. digitalWrite where the mutator changes the output byte (R130), and the source's example of it (R132). -/

namespace Sys2Proof.Machine

open Sys2Proof

/-- The bits determine the mutated byte: it is the one with the wanted bit at the offset and the old bits elsewhere. -/
theorem eq_mutate_of_getLsbD {reg v : Byte} {b : BitOffset} {want : Bool} (hb : v.getLsbD b.val = want)
    (hne : ∀ j : BitOffset, j ≠ b → v.getLsbD j.val = reg.getLsbD j.val) : v = (mutate reg b want).1 := by
  refine BitVec.eq_of_getLsbD_eq fun i hi => ?_
  rw [getLsbD_mutate reg b ⟨i, hi⟩ want]
  split_ifs with hib
  · rwa [← hib] at hb
  · exact hne ⟨i, hi⟩ hib

/-- R120: pinMode writes no output register. -/
theorem exec_pinMode_out {pin : Pin} {d : Direction} {s t : State} (h : exec (.pinMode pin d) s = .next t) (q : Port) :
    t.out q = s.out q := by
  rw [exec_eq] at h
  cases h
  simp [commandBody, pinModeBody_out]

/-- R130's last branch: the mutator's byte is the register's and the one write's, and the outcome is Ok. -/
theorem exec_digitalWrite_of_mutate_changed {s : State} {k : Int} {val : WriteValue} {lvl : Bool} {p : Port}
    {b : BitOffset} {v : Byte} (hpin : pinCheck s.variant (.int k) = none) (hlvl : levelOf s.settings val = some lvl)
    (hres : resolve s.variant k = (p, b)) (hmut : mutate (s.out p) b lvl = (v, true)) :
    ∃ u, exec (.digitalWrite (.int k) val) s = .next u ∧ u.out p = v ∧
      Issues s u [.write s.settings.address (s.regOut p) v] ∧ u.outcomes = s.outcomes ++ [.ok] := by
  obtain ⟨u, hu, hbit, hrest, hissues, hok, -⟩ := exec_digitalWrite_of_valid hpin hlvl hres
  have hout : u.out p = v := (eq_mutate_of_getLsbD hbit hrest).trans (congrArg Prod.fst hmut)
  have hchanged : (s.out p).getLsbD b.val ≠ lvl := (mutate_changed_iff _ _ _).mp (congrArg Prod.snd hmut)
  rw [if_neg hchanged, hout] at hissues
  exact ⟨u, hu, hout, hissues, hok⟩

/-- Settles O20: R122's pinMode keeps the fresh block's settings and its output byte 0x00, whose bit 3 is set. -/
theorem digitalWriteWorkedExample : Obligations.DigitalWriteWorkedExample := by
  have hlvl : levelOf Settings.default .num1 = some true := by decide
  have hmut : mutate 0x00#8 3 true = (0x08#8, true) := by decide
  obtain ⟨-, t, ht, -⟩ := pinModeWorkedExample
  have frame := exec_frame ht
  have hset : t.settings = Settings.default := frame.settings
  have hvar : t.variant = .single := frame.variant
  have hout : t.out .A = 0x00#8 := exec_pinMode_out ht .A
  have hreg : t.regOut .A = 0x09#8 := by
    simp [State.regRow, hset, hvar, Settings.default, RegTable.default, RegTable.row]
  obtain ⟨u, hu, hbyte, hissues, hok⟩ := exec_digitalWrite_of_mutate_changed (s := t) (k := 3) (p := .A) (b := 3)
    (by rw [hvar]; decide) (by rw [hset]; exact hlvl) (by rw [hvar]; decide) (by rw [hout]; exact hmut)
  rw [hset, hreg] at hissues
  exact ⟨hlvl, hmut, t, u, ht, hu, hbyte, hissues, hok⟩

end Sys2Proof.Machine
end

section
/-! PROOFS. digitalRead on a valid pin (R140), the result of a read (R141), and the source's example of both (R143). -/

namespace Sys2Proof.Machine

open Sys2Proof

section
variable {s : State} {pin : Pin} {p : Port} {b : BitOffset}

/-- R140 on a valid pin: one read of the port's input register under the next tag, which is the outcome. -/
theorem digitalReadBody_of_locate_ok (hloc : locate s.variant pin = .ok (p, b)) :
    digitalReadBody pin s = (s.issueRead (s.regIn p) b).emit (.issued s.nextTag) := by
  rw [digitalReadBody, hloc]

/-- The same of the whole step. -/
theorem exec_digitalRead_of_locate_ok (hloc : locate s.variant pin = .ok (p, b)) :
    ∃ t, exec (.digitalRead pin) s = .next t ∧
      Issues s t [.read s.settings.address (s.regIn p) s.nextTag b] ∧
      t.outcomes = s.outcomes ++ [.issued s.nextTag] := by
  have hbody : commandBody (.digitalRead pin) s.trace = _ :=
    digitalReadBody_of_locate_ok (s := s.trace) (by rwa [State.trace_variant])
  exact ⟨_, exec_eq _ s, .traced ⟨by simp [hbody], by simp [hbody]⟩, by simp [hbody]⟩

end

/-- R141 where reads do not follow polarity: a successful read delivers the bit of the byte under its tag. -/
theorem resolveTransaction_read_results {s : State} (hpol : s.settings.readFollowsPolarity = false) (c : ChipAddr)
    (r : RegAddr) (tag : Nat) (b : BitOffset) (byte : Byte) :
    (resolveTransaction (.read c r tag b) (.success byte) s).results = s.results ++ [⟨tag, .level (bitAt byte b)⟩] := by
  have hlevel : readLevel s.settings byte b = bitAt byte b := bitTestIsTheBit.2 _ _ _ (by rw [hpol, Bool.false_and])
  rw [resolveTransaction, State.deliver_results, hlevel]

/-- Settles O23: pin 5 of SINGLE is bit 5 of port A, whose input register is 0x09; that bit is set in 0x20 and clear in
0xDF. -/
theorem digitalReadWorkedExample : Obligations.DigitalReadWorkedExample := by
  intro s hvar hregs hpol htag
  have hloc : locate s.variant (.int 5) = .ok (.A, 5) :=
    locate_eq_ok_iff.mpr ⟨5, rfl, by rw [hvar]; decide, by rw [hvar]; decide⟩
  have hreg : s.regIn .A = 0x09#8 := by rw [State.regIn, State.regRow, hregs, hvar]; rfl
  have hset : bitAt 0x20#8 5 = true := by decide
  have hclear : bitAt 0xDF#8 5 = false := by decide
  have hread := exec_digitalRead_of_locate_ok hloc
  rw [hreg, htag] at hread
  have hdeliver := resolveTransaction_read_results hpol s.settings.address 0x09#8 0 5
  exact ⟨hread, hset ▸ hdeliver 0x20#8, hclear ▸ hdeliver 0xDF#8⟩

end Sys2Proof.Machine
end

section
/-! PROOFS. What reset leaves alone (R151). -/

namespace Sys2Proof.Machine

open Sys2Proof

/-- R151: reset issues writes only, so it takes no tag. -/
theorem exec_reset_nextTag {s t : State} (h : exec .reset s = .next t) : t.nextTag = s.nextTag := by
  rw [exec_eq] at h
  cases h
  simpa [commandBody, resetBody] using (initSequence_spec s.trace).nextTag

/-- A step that issues transactions puts them behind those already pending. -/
theorem Issues.pending_prefix {s t : State} {txns : List Transaction} (h : Issues s t txns) :
    s.pending <+: t.pending :=
  ⟨_, h.pending.symm⟩

/-- Settles O26: all but the tag is what every command leaves alone. -/
theorem resetFrame : Obligations.ResetFrame := by
  intro s t h
  have frame := exec_frame h
  obtain ⟨txns, hissues⟩ := frame.issues
  exact ⟨frame.settings, frame.variant, frame.busOpen, exec_reset_nextTag h, frame.refused, frame.results,
    frame.delivered, frame.turns, hissues.pending_prefix⟩

end Sys2Proof.Machine
end

section
/-! PROOFS. A command that answers InvalidArgument raised it, and did nothing else (R161). -/

namespace Sys2Proof.Machine

open Sys2Proof

/-- A command's body raises, or it returns one outcome that is no InvalidArgument. -/
theorem commandBody_raises_or_accepts (i : Instr) (s : State) :
    (∃ c, commandBody i s = s.raise c) ∨
    (∃ o, (commandBody i s).outcomes = s.outcomes ++ [o] ∧ ∀ c, o ≠ .invalidArgument c) := by
  cases i with
  | pinMode pin d =>
    rcases pinModeBody_cases pin d s with
      ⟨-, h⟩ | ⟨_, c, -, -, h⟩ | ⟨_, _, _, -, -, -, h⟩ | ⟨_, _, _, -, -, -, h⟩ <;> rw [commandBody, h]
    · exact .inl ⟨.direction, rfl⟩
    · exact .inl ⟨c, rfl⟩
    · exact .inr ⟨.ok, rfl, nofun⟩
    · exact .inr ⟨.ok, rfl, nofun⟩
  | digitalWrite pin val =>
    rcases digitalWriteBody_cases pin val s with
      ⟨-, h⟩ | ⟨_, c, -, -, h⟩ | ⟨_, _, _, -, -, -, h⟩ | ⟨_, _, _, -, -, -, h⟩ <;> rw [commandBody, h]
    · exact .inl ⟨.value, rfl⟩
    · exact .inl ⟨c, rfl⟩
    · exact .inr ⟨.ok, rfl, nofun⟩
    · exact .inr ⟨.ok, rfl, nofun⟩
  | digitalRead pin =>
    rcases digitalReadBody_cases pin s with ⟨c, -, h⟩ | ⟨_, _, -, h⟩ <;> rw [commandBody, h]
    · exact .inl ⟨c, rfl⟩
    · exact .inr ⟨.issued s.nextTag, rfl, nofun⟩
  | reset =>
    exact .inr ⟨.ok, by rw [commandBody, resetBody, State.emit_outcomes, (initSequence_spec s).outcomes], nofun⟩

/-- The outcome InvalidArgument comes only from raising that cause. -/
theorem commandBody_eq_raise {i : Instr} {s : State} {c : Cause}
    (h : (commandBody i s).outcomes = s.outcomes ++ [.invalidArgument c]) : commandBody i s = s.raise c := by
  rcases commandBody_raises_or_accepts i s with ⟨c', hraise⟩ | ⟨o, ho, hne⟩
  · obtain rfl : c' = c := by simpa [hraise] using h
    exact hraise
  · exact absurd (by simpa [ho] using h) (hne c)

/-- A body that raises logs the cause and no other event of its own. -/
theorem LogGains.traced_of_raise {s : State} {c : Cause} {body : State → State} (h : body s.trace = s.trace.raise c) :
    LogGains s (s.traced body) [.invalidArgument c] :=
  .of_traced (body := body) (by rw [h, State.raise_log]) (by rw [h, State.raise_settings, State.trace_settings])

/-- Settles O29: the body raised, so the step only logged the cause; and every command completes from every state. -/
theorem invalidArgumentIsANoOp : Obligations.InvalidArgumentIsANoOp := by
  intro i s t c hexec hout
  rw [exec_eq] at hexec
  cases hexec
  have hraise : commandBody i s.trace = s.trace.raise c := commandBody_eq_raise (by simpa using hout)
  exact ⟨.traced_of_raise hraise, .traced_of_raise hraise, fun j => ⟨_, exec_eq j _⟩⟩

end Sys2Proof.Machine
end

section
/-! PROOFS. The encoder of R81–R86 and the decoder of R89 undo each other. -/

namespace Sys2Proof

/-! ### Pin operands (R83) -/

/-- A pin operand is read from exactly the two fields the encoder gives it, and the pins read are the encodable ones. -/
theorem decodePin_eq_ok_iff (pk : BitVec 2) (bits : BitVec 16) (pin : Pin) :
    decodePin pk bits = .ok pin ↔ pin.wellFormed = true ∧ pk = pin.kindBits ∧ bits = pin.bits := by
  have hint : ∀ k : Int, bits.toInt = k ↔ (-32768 ≤ k ∧ k ≤ 32767) ∧ bits = BitVec.ofInt 16 k := by
    refine fun k => ⟨fun h => ?_, fun ⟨hk, hbits⟩ => ?_⟩
    · subst h
      exact ⟨⟨bits.le_toInt, Int.le_of_lt_add_one bits.toInt_lt⟩, BitVec.ofInt_toInt.symm⟩
    · rw [hbits]
      exact BitVec.toInt_ofInt_eq_self (by decide) hk.1 (Int.lt_add_one_of_le hk.2)
  unfold decodePin
  cases pin <;> split_ifs <;> simp [Pin.wellFormed, Pin.kindBits, Pin.bits, *]

/-! ### Operand codes (R84, R85) -/

theorem code_dirOf {arg : BitVec 4} (h : dirOf arg ≠ .bad) : (dirOf arg).code = arg := by
  revert arg
  decide

theorem code_valOf {arg : BitVec 4} (h : valOf arg ≠ .bad) : (valOf arg).code = arg := by
  revert arg
  decide

/-! ### Words (R81) -/

/-- A word whose reserved fields are zero is made of its other four. -/
theorem eq_makeWord {w : Word} (hz1 : z1Field w = 0#4) (hz2 : z2Field w = 0#2) :
    w = makeWord (opField w) (pkField w) (argField w) (pinField w) := by
  simp [eq_iff_fields w, hz1, hz2]

/-- This mask clears ARG and nothing else. -/
theorem makeWord_and_clearArg (op : BitVec 4) (pk : BitVec 2) (arg : BitVec 4) (pin : BitVec 16) :
    makeWord op pk arg pin &&& 0xFFF0FFFF#32 = makeWord op pk 0#4 pin := by
  rw [and_eq_iff_fields]
  simp only [opField_makeWord, z1Field_makeWord, pkField_makeWord, z2Field_makeWord, argField_makeWord,
    pinField_makeWord]
  exact ⟨BitVec.and_allOnes, BitVec.zero_and, BitVec.and_allOnes, BitVec.zero_and, BitVec.and_zero, BitVec.and_allOnes⟩

/-! ### The decoder's case on OP (R89) -/

/-- R89: the words that the case on OP answers, and the commands it answers. -/
theorem decodeOp_cases {w : Word} {pin : Pin} {i : Instr} (h : decodeOp w pin = .ok i) :
    (opField w = Operation.pinMode.code ∧ i = .pinMode pin (dirOf (argField w))) ∨
    (opField w = Operation.digitalWrite.code ∧ i = .digitalWrite pin (valOf (argField w))) ∨
    (opField w = Operation.digitalRead.code ∧ argField w = 0#4 ∧ i = .digitalRead pin) ∨
    (w = encode .reset ∧ i = .reset) := by
  unfold decodeOp at h
  split_ifs at h with h₁ h₂ h₃ harg h₄ hw <;> cases h
  · exact .inl ⟨h₁, rfl⟩
  · exact .inr (.inl ⟨h₂, rfl⟩)
  · exact .inr (.inr (.inl ⟨h₃, harg, rfl⟩))
  · exact .inr (.inr (.inr ⟨hw, rfl⟩))

/-- A word with an encodable pin is decoded by the case on OP alone. -/
theorem decode_makeWord {op arg : BitVec 4} {pin : Pin} {i : Instr} (hpin : pin.wellFormed = true)
    (hop : decodeOp (makeWord op pin.kindBits arg pin.bits) pin = .ok i) :
    decode (makeWord op pin.kindBits arg pin.bits) = .ok i := by
  refine (decode_eq_ok_iff _ i).2 ⟨z1Field_makeWord .., z2Field_makeWord .., pin, ?_, hop⟩
  rw [pkField_makeWord, pinField_makeWord, decodePin_eq_ok_iff]
  exact ⟨hpin, rfl, rfl⟩

/-- Settles O1: the encoded pin is read back, and then the case on OP finds the operation and reads its operand. -/
theorem decodeEncodeRoundTrip : Obligations.DecodeEncodeRoundTrip := by
  intro i hwf
  cases i with
  | pinMode pin d => exact decode_makeWord hwf (by simp [decodeOp, Operation.code])
  | digitalWrite pin val => exact decode_makeWord hwf (by simp [decodeOp, Operation.code])
  | digitalRead pin => exact decode_makeWord hwf (by simp [decodeOp, Operation.code])
  | reset => decide

/-- Settles O2: the word is made of the fields the decoder read, and so is the command's, but for ARG where the operand
is a bad one. -/
theorem decodedCommandEncodesToItsWord : Obligations.DecodedCommandEncodesToItsWord := by
  intro w i h
  obtain ⟨hz1, hz2, pin, hpin, hop⟩ := (decode_eq_ok_iff w i).1 h
  obtain ⟨hwf, hpk, hbits⟩ := (decodePin_eq_ok_iff _ _ pin).1 hpin
  have hw := eq_makeWord hz1 hz2
  rw [hpk, hbits] at hw
  rcases decodeOp_cases hop with ⟨hcode, rfl⟩ | ⟨hcode, rfl⟩ | ⟨hcode, harg, rfl⟩ | ⟨rfl, rfl⟩
  · rw [hcode] at hw
    refine ⟨hwf, by rw [hw, encode, makeWord_and_clearArg, makeWord_and_clearArg], fun hbad _ => ?_⟩
    rw [encode, code_dirOf fun hd => hbad pin (by rw [hd]), ← hw]
  · rw [hcode] at hw
    refine ⟨hwf, by rw [hw, encode, makeWord_and_clearArg, makeWord_and_clearArg], fun _ hbad => ?_⟩
    rw [encode, code_valOf fun hd => hbad pin (by rw [hd]), ← hw]
  · rw [hcode, harg] at hw
    exact ⟨hwf, by rw [encode, ← hw], fun _ _ => hw.symm⟩
  · exact ⟨rfl, rfl, fun _ _ => rfl⟩

/-! ### The spec's examples (R93, R95) -/

/-- Settles O4. The second part is decided as `List.Forall`: as a bounded `∀` it would be tried on every word. -/
theorem wordsOfTheSpecDecode : Obligations.WordsOfTheSpecDecode :=
  ⟨by decide, List.forall_iff_forall_mem.mp (by decide)⟩

/-- Settles O5. -/
theorem assemblyTextGivesTheWords : Obligations.AssemblyTextGivesTheWords := by
  unfold Obligations.AssemblyTextGivesTheWords
  decide

end Sys2Proof
end

section
/-! PROOFS. What a command does: one of six acts, chosen from the settings and the cache; and what each act changes. -/

namespace Sys2Proof.Machine

open Sys2Proof

/-! ### The act of a command -/

/-- What a command does once its operands are checked against the settings and the cache. -/
inductive Act where
  /-- R161 -/
  | raise (c : Cause)
  /-- the bit already stands as wanted -/
  | keep
  /-- R120's last branch: store and issue a direction byte -/
  | putDir (p : Port) (v : Byte)
  /-- R130's last branch: store and issue an output byte -/
  | putOut (p : Port) (v : Byte)
  /-- R140 on a valid pin -/
  | read (p : Port) (b : BitOffset)
  /-- R150 -/
  | init

/-- R105's answer: the changed byte is put, an unchanged one is kept. -/
def Act.ofMutation (put : Byte → Act) (m : Byte × Bool) : Act := if m.2 then put m.1 else .keep

/-- The checks of R120 and R130 in their order: the direction or value, then the pin. -/
def Act.checked (bad : Cause) (want : Option Bool) (place : Except Cause (Port × BitOffset))
    (act : Bool → Port → BitOffset → Act) : Act :=
  match want, place with
  | none, _ => .raise bad
  | some _, .error c => .raise c
  | some w, .ok (p, b) => act w p b

/-- The act a command is in a state. -/
def actOf (i : Instr) (s : State) : Act :=
  match i with
  | .pinMode pin d =>
    .checked .direction (dirBit d) (locate s.variant pin) fun want p b =>
      .ofMutation (.putDir p) (mutate (s.dir p) b want)
  | .digitalWrite pin val =>
    .checked .value (levelOf s.settings val) (locate s.variant pin) fun lvl p b =>
      .ofMutation (.putOut p) (mutate (s.out p) b lvl)
  | .digitalRead pin =>
    match locate s.variant pin with
    | .error c => .raise c
    | .ok (p, b) => .read p b
  | .reset => .init

/-- An act, run. -/
def Act.run : Act → State → State
  | .raise c, s => s.raise c
  | .keep, s => s.emit .ok
  | .putDir p v, s => ((s.setDir p v).issueWrite (s.regDir p) v).emit .ok
  | .putOut p v, s => ((s.setOut p v).issueWrite (s.regOut p) v).emit .ok
  | .read p b, s => (s.issueRead (s.regIn p) b).emit (.issued s.nextTag)
  | .init, s => resetBody s

/-- R105's answer, run. -/
theorem Act.run_ofMutation (put : Byte → Act) (m : Byte × Bool) (s : State) :
    (Act.ofMutation put m).run s = if m.2 then (put m.1).run s else s.emit .ok := by
  unfold Act.ofMutation
  split <;> rfl

/-- A command's body runs its act. -/
theorem commandBody_eq_run (i : Instr) (s : State) : commandBody i s = (actOf i s).run s := by
  cases i with
  | pinMode pin d =>
    simp only [commandBody, pinModeBody, actOf]
    cases dirBit d with
    | none => rfl
    | some want =>
      cases locate s.variant pin with
      | error c => rfl
      | ok pb => exact (Act.run_ofMutation (.putDir pb.1) _ s).symm
  | digitalWrite pin val =>
    simp only [commandBody, digitalWriteBody, actOf]
    cases levelOf s.settings val with
    | none => rfl
    | some lvl =>
      cases locate s.variant pin with
      | error c => rfl
      | ok pb => exact (Act.run_ofMutation (.putOut pb.1) _ s).symm
  | digitalRead pin =>
    simp only [commandBody, digitalReadBody, actOf]
    cases locate s.variant pin <;> rfl
  | reset => rfl

/-- Of the state, a command looks only at the levels of its write values and at the cache to choose its act. -/
theorem actOf_congr (i : Instr) {s t : State} (hlevel : levelOf t.settings = levelOf s.settings)
    (hcache : t.cache = s.cache) : actOf i t = actOf i s := by
  simp only [actOf, State.variant, State.dir, State.out, hlevel, hcache]

/-- Which acts a command may be. -/
inductive Fits (s : State) : Instr → Act → Prop where
  | raise {i : Instr} {c : Cause} (hread : ∀ pin, i = .digitalRead pin → pinCheck s.variant pin ≠ none) :
      Fits s i (.raise c)
  | keep {i : Instr} (hread : ∀ pin, i ≠ .digitalRead pin) : Fits s i .keep
  | putDir {pin : Pin} {d : Direction} {p : Port} {b : BitOffset} {v : Byte}
      (hloc : locate s.variant pin = .ok (p, b)) : Fits s (.pinMode pin d) (.putDir p v)
  | putOut {pin : Pin} {val : WriteValue} {p : Port} {b : BitOffset} {v : Byte}
      (hloc : locate s.variant pin = .ok (p, b)) : Fits s (.digitalWrite pin val) (.putOut p v)
  | read {pin : Pin} {p : Port} {b : BitOffset} (hloc : locate s.variant pin = .ok (p, b)) :
      Fits s (.digitalRead pin) (.read p b)
  | init : Fits s .reset .init

theorem Fits.ofMutation {s : State} {i : Instr} {put : Byte → Act} (m : Byte × Bool)
    (hread : ∀ pin, i ≠ .digitalRead pin) (hput : ∀ v, Fits s i (put v)) : Fits s i (.ofMutation put m) := by
  unfold Act.ofMutation
  split
  · exact hput _
  · exact .keep hread

theorem Fits.checked {s : State} {i : Instr} {act : Bool → Port → BitOffset → Act} (bad : Cause) (want : Option Bool)
    (place : Except Cause (Port × BitOffset)) (hread : ∀ pin, i ≠ .digitalRead pin)
    (hact : ∀ w p b, place = .ok (p, b) → Fits s i (act w p b)) : Fits s i (.checked bad want place act) := by
  unfold Act.checked
  split
  · exact .raise fun pin h => absurd h (hread pin)
  · exact .raise fun pin h => absurd h (hread pin)
  · exact hact _ _ _ rfl

theorem fits_actOf (i : Instr) (s : State) : Fits s i (actOf i s) := by
  cases i with
  | pinMode pin d => exact .checked _ _ _ (by simp) fun _ _ _ hloc => .ofMutation _ (by simp) fun _ => .putDir hloc
  | digitalWrite pin val =>
    exact .checked _ _ _ (by simp) fun _ _ _ hloc => .ofMutation _ (by simp) fun _ => .putOut hloc
  | digitalRead pin =>
    simp only [actOf]
    cases hloc : locate s.variant pin with
    | error c =>
      refine .raise fun pin' h => ?_
      cases h
      rw [locate_eq_error_iff.mp hloc]
      exact Option.some_ne_none c
    | ok pb => exact .read hloc
  | reset => exact .init

/-! ### What an act changes -/

/-- The cache after an act. -/
def Act.cache : Act → Cache → Cache
  | .putDir p v, k => k.setPort p { k.port p with dir := v }
  | .putOut p v, k => k.setPort p { k.port p with out := v }
  | .init, k => Cache.initial k.variant
  | .raise _, k => k
  | .keep, k => k
  | .read _ _, k => k

/-- The transactions an act issues. -/
def Act.txns : Act → State → List Transaction
  | .putDir p v, s => [.write s.settings.address (s.regDir p) v]
  | .putOut p v, s => [.write s.settings.address (s.regOut p) v]
  | .read p b, s => [.read s.settings.address (s.regIn p) s.nextTag b]
  | .init, s => s.initWrites
  | .raise _, _ => []
  | .keep, _ => []

/-- How many read tags an act takes. -/
def Act.tags : Act → Nat
  | .read _ _ => 1
  | .raise _ => 0
  | .keep => 0
  | .putDir _ _ => 0
  | .putOut _ _ => 0
  | .init => 0

/-- The outcome of an act. -/
def Act.outcome : Act → State → PortOutcome
  | .raise c, _ => .invalidArgument c
  | .read _ _, s => .issued s.nextTag
  | .keep, _ => .ok
  | .putDir _ _, _ => .ok
  | .putOut _ _, _ => .ok
  | .init, _ => .ok

/-- The log events of an act. -/
def Act.logs : Act → List LogKind
  | .raise c => [.invalidArgument c]
  | .keep => []
  | .putDir _ _ => []
  | .putOut _ _ => []
  | .read _ _ => []
  | .init => []

/-- The init sequence leaves the cache as construction does (R21, R22, R150). -/
theorem initSequence_cache (s : State) : s.initSequence.cache = Cache.initial s.variant := by
  cases hc : s.cache with
  | single a =>
    have hv : s.variant = .single := by rw [State.variant, hc]; rfl
    rw [initSequence_single s hv, hv]
    simp [hc, Cache.setPort, Cache.port, Cache.initial]
  | dual a b =>
    have hv : s.variant = .dual := by rw [State.variant, hc]; rfl
    rw [initSequence_dual s hv, hv]
    simp [hc, Cache.setPort, Cache.port, Cache.initial]

section
variable (a : Act) (s : State)

@[simp] theorem Act.run_cache : (a.run s).cache = a.cache s.cache := by
  cases a <;> simp [Act.run, Act.cache, resetBody, initSequence_cache, State.variant]

theorem Act.run_issues : Issues s (a.run s) (a.txns s) := by
  cases a with
  | init => exact ⟨(initSequence_spec s).issues.pending, (initSequence_spec s).issues.issued⟩
  | raise | keep => exact .refl_of_eq rfl rfl
  | putDir | putOut | read => exact ⟨rfl, rfl⟩

@[simp] theorem Act.run_nextTag : (a.run s).nextTag = s.nextTag + a.tags := by
  cases a with
  | init => exact (initSequence_spec s).nextTag
  | raise | keep | putDir | putOut | read => rfl

@[simp] theorem Act.run_outcomes : (a.run s).outcomes = s.outcomes ++ [a.outcome s] := by
  cases a with
  | init => exact congrArg (· ++ [.ok]) (initSequence_spec s).outcomes
  | raise | keep | putDir | putOut | read => rfl

@[simp] theorem Act.run_settings : (a.run s).settings = s.settings := by
  cases a with
  | init => exact (initSequence_spec s).settings
  | raise | keep | putDir | putOut | read => rfl

theorem Act.run_log : ∃ mid : List LogEvent, (a.run s).log = s.log ++ mid ∧ mid.map LogEvent.kind = a.logs := by
  cases a with
  | init => exact ⟨[], by simpa [Act.run, resetBody] using (initSequence_spec s).log, rfl⟩
  | raise c => exact ⟨_, rfl, rfl⟩
  | keep | putDir | putOut | read => exact ⟨[], (List.append_nil _).symm, rfl⟩

@[simp] theorem Act.txns_trace : a.txns s.trace = a.txns s := by
  cases a <;> simp [Act.txns, State.initWrites]

@[simp] theorem Act.outcome_trace : a.outcome s.trace = a.outcome s := by
  cases a <;> simp [Act.outcome]

/-- The transactions of an act carry the tags it takes, in order (R58). -/
theorem Act.tags_txns :
    List.range s.nextTag ++ (a.txns s).filterMap Transaction.tag? = List.range (s.nextTag + a.tags) := by
  cases a with
  | read => exact List.range_succ.symm
  | init => simp [Act.txns, Act.tags, State.initWrites, Transaction.tag?]
  | raise | keep | putDir | putOut => simp [Act.txns, Act.tags, Transaction.tag?]

end

/-- What an act leaves behind, beside the frame of every command. -/
structure Act.Does (a : Act) (s t : State) : Prop where
  cache : t.cache = a.cache s.cache
  issues : Issues s t (a.txns s)
  nextTag : t.nextTag = s.nextTag + a.tags
  outcomes : t.outcomes = s.outcomes ++ [a.outcome s]
  log : LogGains s t a.logs

/-- A command step does the command's act. -/
theorem does_of_exec {i : Instr} {s t : State} (h : exec i s = .next t) : (actOf i s).Does s t := by
  rw [exec_eq] at h
  cases h
  have hbody : commandBody i s.trace = (actOf i s).run s.trace := by
    rw [commandBody_eq_run, actOf_congr i (by rw [State.trace_settings]) s.trace_cache]
  generalize actOf i s = a at hbody
  obtain ⟨mid, hlog, hkinds⟩ := a.run_log s.trace
  have hissues := a.run_issues s.trace
  rw [← hbody, Act.txns_trace] at hissues
  exact {
    cache := by simp [hbody]
    issues := .traced hissues
    nextTag := by simp [hbody]
    outcomes := by simp [hbody]
    log := hkinds ▸ .of_traced (by rw [hbody, hlog]) (by simp [hbody]) }

theorem exec_does (i : Instr) (s : State) : ∃ t, exec i s = .next t ∧ (actOf i s).Does s t :=
  ⟨_, exec_eq i s, does_of_exec (exec_eq i s)⟩

end Sys2Proof.Machine
end

section
/-! PROOFS. The statements about single commands: what each does, what it leaves alone, and what it depends on. -/

namespace Sys2Proof.Machine

open Sys2Proof

/-! ### Acts by command -/

section
variable {i : Instr} {s : State} {a : Act}

theorem Fits.txns_length_le_one (h : Fits s i a) (hi : i ≠ .reset) : (a.txns s).length ≤ 1 := by
  cases h with
  | init => exact absurd rfl hi
  | raise | keep => exact Nat.zero_le 1
  | putDir | putOut | read => exact Nat.le_refl 1

/-- Only a digitalRead of a valid pin takes a tag. -/
theorem Fits.tags_eq_zero (h : Fits s i a) (hi : ∀ pin, i = .digitalRead pin → pinCheck s.variant pin ≠ none) :
    a.tags = 0 := by
  cases h with
  | read hloc =>
    obtain ⟨k, rfl, hpin, -⟩ := locate_eq_ok_iff.mp hloc
    exact absurd hpin (hi _ rfl)
  | raise | keep | putDir | putOut | init => rfl

end

/-- A step other than reset issues at most one transaction. -/
theorem exec_issues_at_most_one {i : Instr} {s t : State} (hi : i ≠ .reset) (h : exec i s = .next t) :
    ∃ txns, txns.length ≤ 1 ∧ Issues s t txns :=
  ⟨_, (fits_actOf i s).txns_length_le_one hi, (does_of_exec h).issues⟩

/-- A step other than a digitalRead of a valid pin takes no tag. -/
theorem exec_nextTag {i : Instr} {s t : State} (hi : ∀ pin, i = .digitalRead pin → pinCheck s.variant pin ≠ none)
    (h : exec i s = .next t) : t.nextTag = s.nextTag := by
  rw [(does_of_exec h).nextTag, (fits_actOf i s).tags_eq_zero hi, Nat.add_zero]

/-! ### pinMode and digitalWrite -/

/-- R120 on a valid pin and direction: the act is the mutator's. -/
theorem actOf_pinMode_of_valid {s : State} {pin : Pin} {d : Direction} {want : Bool} {p : Port} {b : BitOffset}
    (hd : dirBit d = some want) (hloc : locate s.variant pin = .ok (p, b)) :
    actOf (.pinMode pin d) s = .ofMutation (.putDir p) (mutate (s.dir p) b want) := by
  simp only [actOf, hd, hloc, Act.checked]

/-- Settles O15: the act is the mutator's, so the new byte is the mutator's, and it is issued where the bit differed. -/
theorem pinModeSetsDirection : Obligations.PinModeSetsDirection := by
  intro s k d want p b hpin hd hres
  obtain ⟨t, ht, hdoes⟩ := exec_does (.pinMode (.int k) d) s
  rw [actOf_pinMode_of_valid hd (locate_eq_ok_iff.mpr ⟨k, rfl, hpin, hres⟩)] at hdoes
  have hdir : t.dir p = (mutate (s.dir p) b want).1 := by
    rw [State.dir, hdoes.cache, State.dir]
    by_cases hb : (s.cache.port p).dir.getLsbD b.val = want
    · simp [mutate_of_eq hb, Act.ofMutation, Act.cache]
    · simp [mutate_of_ne hb, Act.ofMutation, Act.cache]
  refine ⟨t, ht, by rw [hdir, getLsbD_mutate, if_pos rfl], fun j hj => by rw [hdir, getLsbD_mutate, if_neg hj], ?_⟩
  split_ifs with hb
  · rw [mutate_of_eq hb] at hdoes
    exact ⟨hdoes.issues, hdoes.outcomes, hdoes.log⟩
  · rw [hdir]
    rw [mutate_of_ne hb] at hdoes ⊢
    exact ⟨hdoes.issues, hdoes.outcomes, hdoes.log⟩

/-- R130: digitalWrite writes no direction register. -/
theorem exec_digitalWrite_dir {pin : Pin} {val : WriteValue} {s t : State}
    (h : exec (.digitalWrite pin val) s = .next t) (q : Port) : t.dir q = s.dir q := by
  rw [exec_eq] at h
  cases h
  simp [commandBody, digitalWriteBody_dir]

/-- Settles O16: a direction bit that changed would be the pin's (R108). -/
theorem pinModeFrame : Obligations.PinModeFrame := by
  intro s t pin d h
  have frame := exec_frame h
  refine ⟨frame.settings, frame.variant, frame.busOpen, exec_nextTag (by simp) h, frame.refused, frame.results,
    frame.delivered, frame.turns, fun q _ => exec_pinMode_out h q, fun q hq j hother => ?_,
    exec_issues_at_most_one (by simp) h, frame.outcomes⟩
  by_contra hne
  obtain ⟨k, d', hi, hpin, hres⟩ := exec_dir_lane (by simp) h hq hne
  cases hi
  exact hother k rfl hpin hres

/-- Settles O19: an output bit that changed would be the pin's (R108). -/
theorem digitalWriteFrame : Obligations.DigitalWriteFrame := by
  intro s t pin val h
  have frame := exec_frame h
  refine ⟨frame.settings, frame.variant, frame.busOpen, exec_nextTag (by simp) h, frame.refused, frame.results,
    frame.delivered, frame.turns, fun q _ => exec_digitalWrite_dir h q, fun q hq j hother => ?_,
    exec_issues_at_most_one (by simp) h, frame.outcomes⟩
  by_contra hne
  obtain ⟨k, val', hi, hpin, hres⟩ := exec_out_lane (by simp) h hq hne
  cases hi
  exact hother k rfl hpin hres

/-! ### digitalRead -/

/-- Settles O21: the act is the read. -/
theorem digitalReadIssuesOneRead : Obligations.DigitalReadIssuesOneRead := by
  intro s k p b hpin hres
  obtain ⟨t, ht, hdoes⟩ := exec_does (.digitalRead (.int k)) s
  have hact : actOf (.digitalRead (.int k)) s = .read p b := by
    simp only [actOf, locate_eq_ok_iff.mpr ⟨k, rfl, hpin, hres⟩]
  rw [hact] at hdoes
  exact ⟨t, ht, hdoes.issues, hdoes.nextTag, hdoes.outcomes, hdoes.log⟩

/-- Settles O22. -/
theorem digitalReadFrame : Obligations.DigitalReadFrame := by
  intro s t pin h
  have frame := exec_frame h
  refine ⟨frame.settings, exec_digitalRead_cache h, frame.busOpen, frame.refused, frame.results, frame.delivered,
    frame.turns, fun hpin => exec_nextTag (fun pin' hi => ?_) h, exec_issues_at_most_one (by simp) h, frame.outcomes⟩
  cases hi
  exact hpin

/-! ### reset -/

/-- Settles O25. -/
theorem resetRunsInitSequence : Obligations.ResetRunsInitSequence := by
  intro s
  obtain ⟨t, ht, hdoes⟩ := exec_does .reset s
  exact ⟨t, ht, fun p hp => exec_reset_regs ht hp, hdoes.issues, hdoes.outcomes, hdoes.log⟩

/-- Settles O27: on DUAL with R33's table the init sequence is the four writes of the example. -/
theorem resetWorkedExample : Obligations.ResetWorkedExample := by
  intro s hcache hregs
  obtain ⟨t, ht, hdoes⟩ := exec_does .reset s
  have hvar : s.variant = .dual := by rw [State.variant, hcache]; rfl
  have hwrites : s.initWrites = [.write s.settings.address 0x00#8 0xFF#8, .write s.settings.address 0x01#8 0xFF#8,
      .write s.settings.address 0x14#8 0x00#8, .write s.settings.address 0x15#8 0x00#8] := by
    simp [State.initWrites, State.regRow, hvar, hregs, Variant.ports, RegTable.row, RegTable.default]
  refine ⟨t, ht, ?_, hwrites ▸ hdoes.issues, hdoes.outcomes⟩
  rw [hdoes.cache, hcache]
  rfl

/-! ### Errors -/

theorem exists_dirBit {d : Direction} (h : d ≠ .bad) : ∃ want, dirBit d = some want := by
  cases d with
  | input | output => exact ⟨_, rfl⟩
  | bad => exact absurd rfl h

theorem exists_levelOf (c : Settings) {val : WriteValue} (h : val ≠ .bad) : ∃ lvl, levelOf c val = some lvl := by
  cases val with
  | num0 | num1 | boolFalse | boolTrue => exact ⟨_, rfl⟩
  | bad => exact absurd rfl h

/-- R161: a command whose act is to raise completes with the cause and has no other effect. -/
theorem exec_of_actOf_eq_raise {i : Instr} {s : State} {c : Cause} (h : actOf i s = .raise c) :
    ∃ t, exec i s = .next t ∧ t.outcomes = s.outcomes ++ [.invalidArgument c] ∧ NoEffect s t := by
  refine exec_of_raise ?_
  rw [commandBody_eq_run, actOf_congr i (by rw [State.trace_settings]) s.trace_cache, h]
  rfl

/-- Settles O8: `pinCheck` compares with 8 or 16, and its verdict is the act of each operation that takes the pin. -/
theorem pinCheckVerdicts : Obligations.PinCheckVerdicts := by
  refine ⟨fun _ => rfl, fun k => ⟨fun h => if_pos h, fun h => if_neg h⟩,
    fun k => ⟨fun h => if_pos h, fun h => if_neg h⟩, fun s pin c hpin i hi => exec_of_actOf_eq_raise ?_⟩
  have hloc : locate s.variant pin = .error c := locate_eq_error_iff.mpr hpin
  rcases hi with ⟨d, hd, rfl⟩ | ⟨val, hval, rfl⟩ | rfl
  · obtain ⟨want, hwant⟩ := exists_dirBit hd
    simp only [actOf, hwant, hloc, Act.checked]
  · obtain ⟨lvl, hlvl⟩ := exists_levelOf s.settings hval
    simp only [actOf, hlvl, hloc, Act.checked]
  · simp only [actOf, hloc]

/-! ### All commands -/

/-- Only a digitalRead of a valid pin answers Issued, and with the next tag. -/
theorem Fits.outcome_eq_issued_iff {i : Instr} {s : State} {a : Act} (h : Fits s i a) (tag : Nat) :
    a.outcome s = .issued tag ↔ ∃ pin, i = .digitalRead pin ∧ pinCheck s.variant pin = none ∧ tag = s.nextTag := by
  cases h with
  | raise hread => exact iff_of_false nofun fun ⟨pin, hi, hpin, _⟩ => hread pin hi hpin
  | keep hread => exact iff_of_false nofun fun ⟨pin, hi, _⟩ => hread pin hi
  | putDir | putOut | init => simp [Act.outcome]
  | read hloc =>
    obtain ⟨k, rfl, hpin, -⟩ := locate_eq_ok_iff.mp hloc
    simp [Act.outcome, hpin, eq_comm]

theorem Act.outcome_ne_refused (a : Act) (s : State) : a.outcome s ≠ .refused := by
  cases a <;> exact nofun

/-- Settles O28. -/
theorem everyCommandCompletesWithOneOutcome : Obligations.EveryCommandCompletesWithOneOutcome := by
  intro i s
  obtain ⟨t, ht, hdoes⟩ := exec_does i s
  exact ⟨t, _, ht, hdoes.outcomes, Act.outcome_ne_refused _ s, (fits_actOf i s).outcome_eq_issued_iff⟩

section
variable (a : Act) {s t : State}

/-- An act's transactions depend only on the settings, the variant and the next tag. -/
theorem Act.txns_congr (hs : t.settings = s.settings) (hv : t.variant = s.variant) (hn : t.nextTag = s.nextTag) :
    a.txns t = a.txns s := by
  cases a <;> simp [Act.txns, State.initWrites, State.regRow, hs, hv, hn]

theorem Act.outcome_congr (hn : t.nextTag = s.nextTag) : a.outcome t = a.outcome s := by
  cases a <;> simp [Act.outcome, hn]

end

/-- Settles O33: the act is the same in both states, and so is what it does. -/
theorem commandsIgnoreTheTransport : Obligations.CommandsIgnoreTheTransport := by
  intro i s₁ s₂ hs hc hn
  obtain ⟨t₁, ht₁, hdoes₁⟩ := exec_does i s₁
  obtain ⟨t₂, ht₂, hdoes₂⟩ := exec_does i s₂
  rw [actOf_congr i (by rw [hs]) hc] at hdoes₁
  have hv : s₁.variant = s₂.variant := by rw [State.variant, hc, State.variant]
  have hissues₁ := hdoes₁.issues
  have houtcomes₁ := hdoes₁.outcomes
  rw [Act.txns_congr _ hs hv hn] at hissues₁
  rw [Act.outcome_congr _ hn] at houtcomes₁
  exact ⟨t₁, t₂, _, _, ht₁, ht₂, by rw [hdoes₁.cache, hdoes₂.cache, hc], by rw [hdoes₁.nextTag, hdoes₂.nextTag, hn],
    hissues₁, hdoes₂.issues, houtcomes₁, hdoes₂.outcomes⟩

/-! ### Levels and codes (R104, R160) -/

/-- Settles O12: the constants are swapped by REVERSE, and the numbers follow them or stand for themselves. -/
theorem levelMapping : Obligations.LevelMapping := by
  have hnumeric : ∀ c : Settings, c.numericFollowsPolarity = true →
      levelOf c .num1 = some (high c) ∧ levelOf c .num0 = some (low c) := fun c h => by simp [levelOf, h]
  have hraw : ∀ c : Settings, c.numericFollowsPolarity = false →
      levelOf c .num1 = some true ∧ levelOf c .num0 = some false := fun c h => by simp [levelOf, h]
  have hplain : ∀ c : Settings, c.reverse = false → high c = true ∧ low c = false := fun c h => by simp [high, low, h]
  refine ⟨hplain, fun c h => by simp [high, low, h], fun c => ⟨rfl, rfl, rfl⟩, hnumeric, hraw, fun c h => ?_⟩
  cases hn : c.numericFollowsPolarity with
  | false => exact hraw c hn
  | true =>
    obtain ⟨hhigh, hlow⟩ := hplain c h
    exact hhigh ▸ hlow ▸ hnumeric c hn

/-- Settles O34. -/
theorem outcomeCodes : Obligations.OutcomeCodes :=
  ⟨rfl, fun _ => rfl, rfl, rfl, rfl, rfl, rfl, rfl, fun _ => rfl⟩

end Sys2Proof.Machine
end

section
/-! PROOFS. What a step can do: a command word is run or refused, and every step either issues or completes. -/

namespace Sys2Proof.Machine

open Sys2Proof

/-! ### A command word (R50, R90) -/

section
variable {s : State} {w : Word} {rest : List Turn}

theorem step_of_decoded {i : Instr} (ht : s.turns = .command w :: rest) (hw : decode w = .ok i) :
    step s = exec i (s.withTurns rest) := by
  rw [step_of_command ht, commandStep, hw]

theorem step_of_undecodable (ht : s.turns = .command w :: rest) (hw : ∀ i, decode w ≠ .ok i) :
    step s = .next (s.withTurns rest).refuseWord := by
  rw [step_of_command ht, commandStep]
  split
  · exact absurd ‹_› (hw _)
  · rfl

end

/-- A refused word logs nothing of its own (R90). -/
theorem refuseWord_logGains (s : State) : LogGains s s.refuseWord [] :=
  .of_traced (mid := []) (by simp) (by simp)

/-- Settles O6. -/
theorem refusedWordOnlySetsTheMark : Obligations.RefusedWordOnlySetsTheMark := by
  intro s w rest ht hw
  exact ⟨_, step_of_undecodable ht hw, by simp, by simp, by simp, by simp, by simp, by simp, by simp, by simp, by simp,
    by simp, by simp, refuseWord_logGains (s.withTurns rest)⟩

/-- Settles O30: the word is refused before anything else, and a bad operand raises before the pin is looked at. -/
theorem errorPriority : Obligations.ErrorPriority := by
  refine ⟨fun s w rest ht hw => ?_, fun s pin => ?_, fun s pin => exec_of_actOf_eq_raise rfl⟩
  · obtain ⟨t, hstep, -, houtcomes, -⟩ := refusedWordOnlySetsTheMark s w rest ht hw
    exact ⟨t, hstep, houtcomes⟩
  · obtain ⟨t, hexec, houtcomes, -⟩ := exec_of_actOf_eq_raise (i := .pinMode pin .bad) (s := s) rfl
    exact ⟨t, hexec, houtcomes⟩

theorem ofNat_toNat_mod (w : Word) : BitVec.ofNat 32 (w.toNat % 2 ^ 32) = w := by
  rw [Nat.mod_eq_of_lt w.isLt, BitVec.ofNat_toNat, BitVec.setWidth_eq]

/-- Settles O51. -/
theorem stepRunsTheDecodedCommand : Obligations.StepRunsTheDecodedCommand := by
  refine ⟨fun s w rest i ht hw => step_of_decoded ht hw, fun s w i hw => ?_⟩
  rw [State.withFetchWord, ofNat_toNat_mod, step_of_decoded (s.present_turns w) hw]
  rfl

/-! ### Logs -/

theorem LogGains.log_isPrefix {s t : State} {kinds : List LogKind} (h : LogGains s t kinds) : s.log <+: t.log := by
  obtain ⟨pre, mid, post, hlog, -⟩ := h
  exact ⟨pre ++ mid ++ post, by rw [hlog, List.append_assoc, List.append_assoc, List.append_assoc]⟩

/-! ### A step that issues -/

/-- What a command word does to the records of the transport port, be it a command's or refused: it issues admitted
transactions whose tags are the next ones. -/
structure IssuingStep (txns : List Transaction) (s t : State) : Prop where
  settings : t.settings = s.settings
  variant : t.variant = s.variant
  busOpen : t.busOpen = s.busOpen
  results : t.results = s.results
  delivered : t.delivered = s.delivered
  issues : Issues s t txns
  admits : ∀ x ∈ txns, s.Admits x
  tags : List.range s.nextTag ++ txns.filterMap Transaction.tag? = List.range t.nextTag
  outcomes : ∃ o, t.outcomes = s.outcomes ++ [o]
  log : s.log <+: t.log

section
variable {s : State} {p : Port}

theorem State.regDir_mem_writeAddrs (h : p ∈ s.variant.ports) : s.regDir p ∈ s.writeAddrs :=
  List.mem_flatMap.mpr ⟨p, h, List.mem_cons_self⟩

theorem State.regOut_mem_writeAddrs (h : p ∈ s.variant.ports) : s.regOut p ∈ s.writeAddrs :=
  List.mem_flatMap.mpr ⟨p, h, List.mem_pair.mpr (.inr rfl)⟩

theorem admits_initWrites {x : Transaction} (h : x ∈ s.initWrites) : s.Admits x := by
  rcases List.mem_append.mp h with h | h
  · obtain ⟨p, hp, rfl⟩ := List.mem_map.mp h
    exact ⟨rfl, State.regDir_mem_writeAddrs hp⟩
  · obtain ⟨p, hp, rfl⟩ := List.mem_map.mp h
    exact ⟨rfl, State.regOut_mem_writeAddrs hp⟩

/-- R56: a command issues only admitted transactions. -/
theorem Fits.admits {i : Instr} {a : Act} (h : Fits s i a) {x : Transaction} (hx : x ∈ a.txns s) : s.Admits x := by
  cases h with
  | raise | keep => exact absurd hx List.not_mem_nil
  | init => exact admits_initWrites hx
  | putDir hloc =>
    rw [List.mem_singleton.mp hx]
    exact ⟨rfl, State.regDir_mem_writeAddrs (locate_port_mem hloc)⟩
  | putOut hloc =>
    rw [List.mem_singleton.mp hx]
    exact ⟨rfl, State.regOut_mem_writeAddrs (locate_port_mem hloc)⟩
  | read hloc =>
    rw [List.mem_singleton.mp hx]
    exact ⟨rfl, List.mem_map_of_mem (locate_port_mem hloc)⟩

end

theorem issuingStep_of_exec {i : Instr} {s t : State} (h : exec i s = .next t) :
    IssuingStep ((actOf i s).txns s) s t := by
  have frame := exec_frame h
  have does := does_of_exec h
  exact ⟨frame.settings, frame.variant, frame.busOpen, frame.results, frame.delivered, does.issues,
    fun _ => (fits_actOf i s).admits, by rw [Act.tags_txns, does.nextTag], frame.outcomes, does.log.log_isPrefix⟩

theorem issuingStep_refuseWord (s : State) : IssuingStep [] s s.refuseWord :=
  ⟨by simp, by simp, by simp, by simp, by simp, .refl_of_eq (by simp) (by simp), nofun, by simp,
    ⟨.refused, by simp⟩, (refuseWord_logGains s).log_isPrefix⟩

/-! ### A step that completes -/

/-- What the chip receives when a transaction is resolved (R61–R64). -/
def Transaction.receipts : Transaction → Answer → List Delivery
  | .write c r v, .success _ => [⟨c, r, v⟩]
  | .write _ _ _, .failure => []
  | .read _ _ _ _, _ => []

theorem resolveTransaction_delivered (txn : Transaction) (a : Answer) (s : State) :
    (resolveTransaction txn a s).delivered = s.delivered ++ txn.receipts a := by
  cases txn <;> cases a <;> simp [resolveTransaction, Transaction.receipts]

/-- What is delivered to the caller when a transaction is resolved (R63, R64, R141). -/
def Transaction.deliveries (c : Settings) : Transaction → Answer → List ReadResult
  | .write _ _ _, _ => []
  | .read _ _ tag b, .success byte => [⟨tag, .level (readLevel c byte b)⟩]
  | .read _ _ tag _, .failure => [⟨tag, .transportFailure⟩]

theorem resolveTransaction_results (txn : Transaction) (a : Answer) (s : State) :
    (resolveTransaction txn a s).results = s.results ++ txn.deliveries s.settings a := by
  cases txn <;> cases a <;> simp [resolveTransaction, Transaction.deliveries]

theorem resolveTransaction_logGains (txn : Transaction) (a : Answer) (s : State) :
    ∃ kinds, LogGains s (s.traced (resolveTransaction txn a)) kinds := by
  have hlog : ∃ mid, (resolveTransaction txn a s.trace).log = s.trace.log ++ mid := by
    cases txn <;> cases a
    case write.failure => exact ⟨_, rfl⟩
    all_goals exact ⟨[], (List.append_nil _).symm⟩
  obtain ⟨mid, hmid⟩ := hlog
  exact ⟨_, .of_traced hmid (by rw [(resolveTransaction_frame txn a s.trace).settings, State.trace_settings])⟩

/-- What the completion of a pending entry does to the records. -/
structure CompletionStep (e : Entry) (a : Answer) (s t : State) : Prop where
  mem : e ∈ s.pending
  first : s.maySelect e.index = true
  pending : t.pending = s.pending.eraseP (fun x => x.index == e.index)
  settings : t.settings = s.settings
  cache : t.cache = s.cache
  busOpen : t.busOpen = s.busOpen
  nextTag : t.nextTag = s.nextTag
  refused : t.refused = s.refused
  outcomes : t.outcomes = s.outcomes
  issued : t.issued = s.issued
  results : t.results = s.results ++ e.txn.deliveries s.settings a
  delivered : t.delivered = s.delivered ++ e.txn.receipts a
  log : s.log <+: t.log

theorem completionStep_of_transportStep {index : Nat} {a : Answer} {s t : State}
    (h : transportStep index a s = .next t) : ∃ e, e.index = index ∧ CompletionStep e a s t := by
  obtain ⟨e, hfind, hsel, rfl⟩ := transportStep_cases h
  have he : e.index = index := by simpa using List.find?_some hfind
  subst he
  have f := CompletionFrame.of_traced e.txn a (s.removePending e.index)
  obtain ⟨_, hlog⟩ := resolveTransaction_logGains e.txn a (s.removePending e.index)
  exact ⟨e, rfl,
    { mem := List.mem_of_find?_eq_some hfind
      first := hsel
      pending := f.pending
      settings := f.settings
      cache := f.cache
      busOpen := f.busOpen
      nextTag := f.nextTag
      refused := f.refused
      outcomes := f.outcomes
      issued := f.issued
      results := by simp [resolveTransaction_results]
      delivered := by simp [resolveTransaction_delivered]
      log := hlog.log_isPrefix }⟩

theorem IssuingStep.of_withTurns {txns : List Transaction} {s t : State} {rest : List Turn}
    (h : IssuingStep txns (s.withTurns rest) t) : IssuingStep txns s t :=
  { h with issues := ⟨h.issues.pending, h.issues.issued⟩ }

theorem CompletionStep.of_withTurns {e : Entry} {a : Answer} {s t : State} {rest : List Turn}
    (h : CompletionStep e a (s.withTurns rest) t) : CompletionStep e a s t :=
  { h with }

/-- R205: every step issues, or completes the pending entry its move names. -/
theorem step_issues_or_completes {s t : State} (h : step s = .next t) :
    (∃ txns, IssuingStep txns s t) ∨
    (∃ e a rest, s.turns = .complete e.index a :: rest ∧ CompletionStep e a s t) := by
  rcases step_cases h with ⟨w, rest, i, -, -, hexec⟩ | ⟨w, rest, e, -, -, rfl⟩ | ⟨index, a, rest, ht, hcomplete⟩
  · exact .inl ⟨_, (issuingStep_of_exec hexec).of_withTurns⟩
  · exact .inl ⟨_, (issuingStep_refuseWord (s.withTurns rest)).of_withTurns⟩
  · obtain ⟨e, rfl, hc⟩ := completionStep_of_transportStep hcomplete
    exact .inr ⟨e, a, rest, ht, hc.of_withTurns⟩

end Sys2Proof.Machine
end

section
/-! PROOFS. The invariants every step keeps, and what the transport's moves do. -/

namespace Sys2Proof.Machine

open Sys2Proof

/-! ### The books (R32, R58, R59) -/

/-- Issuing keeps the books when the new tags are the next ones. -/
theorem State.BookKept.of_issues {s t : State} {txns : List Transaction} (h : s.BookKept) (hi : Issues s t txns)
    (htags : List.range s.nextTag ++ txns.filterMap Transaction.tag? = List.range t.nextTag) : t.BookKept where
  indices := by
    rw [hi.issued, List.map_append, h.indices, numbered_map_index, List.length_append, numbered_length,
      List.range_eq_range', List.range_eq_range', ← List.range'_append_1, Nat.zero_add]
  tags := by rw [hi.issued, List.filterMap_append, h.tags, numbered_filterMap, htags]
  pending := by
    rw [hi.pending, hi.issued]
    exact h.pending.append (List.Sublist.refl _)

/-- Settles O43: issuing appends to what is issued and pending alike, and a completion only removes a pending entry. -/
theorem stepKeepsTheBooks : Obligations.StepKeepsTheBooks := by
  intro s t h hstep
  rcases step_issues_or_completes hstep with ⟨txns, hi⟩ | ⟨e, a, rest, -, hc⟩
  · exact h.of_issues hi.issues hi.tags
  · exact ⟨hc.issued ▸ h.indices, by rw [hc.issued, hc.nextTag, h.tags], by
      rw [hc.pending, hc.issued]
      exact List.eraseP_sublist.trans h.pending⟩

/-! ### The addresses reached (R56) -/

/-- What may be issued depends only on the settings and the variant. -/
theorem State.Admits.congr {s t : State} {x : Transaction} (h : s.Admits x) (hs : t.settings = s.settings)
    (hv : t.variant = s.variant) : t.Admits x := by
  have hw : t.writeAddrs = s.writeAddrs := by simp [State.writeAddrs, State.regRow, hs, hv]
  have hr : t.readAddrs = s.readAddrs := by simp [State.readAddrs, State.regRow, hs, hv]
  cases x with
  | write addr r v => exact ⟨hs ▸ h.1, hw ▸ h.2⟩
  | read addr r tag b => exact ⟨hs ▸ h.1, hr ▸ h.2⟩

/-- Issuing admitted transactions keeps the addresses. -/
theorem State.WellAddressed.of_issues {s t : State} {txns : List Transaction} (h : s.WellAddressed)
    (hi : Issues s t txns) (hadmits : ∀ x ∈ txns, s.Admits x) (hs : t.settings = s.settings)
    (hv : t.variant = s.variant) (hd : t.delivered = s.delivered) : t.WellAddressed where
  issued e he := by
    rw [hi.issued, List.mem_append] at he
    rcases he with he | he
    · exact (h.issued e he).congr hs hv
    · exact (hadmits _ (txn_mem_of_mem_numbered he)).congr hs hv
  delivered d hmem := by
    rw [hd] at hmem
    obtain ⟨e, he, htxn⟩ := h.delivered d hmem
    exact ⟨e, by rw [hi.issued]; exact List.mem_append_left _ he, htxn⟩

/-- The chip receives only what the transaction writes. -/
theorem eq_write_of_mem_receipts {x : Transaction} {a : Answer} {d : Delivery}
    (h : d ∈ x.receipts a) : x = .write d.addr d.reg d.v := by
  cases x <;> cases a <;> simp_all [Transaction.receipts]

/-- Settles O44: commands issue only admitted transactions, and the chip receives only a pending, so issued, write. -/
theorem onlyTheMappedRegistersAreReached : Obligations.OnlyTheMappedRegistersAreReached := by
  intro s t hb h hstep
  rcases step_issues_or_completes hstep with ⟨txns, hi⟩ | ⟨e, a, rest, -, hc⟩
  · exact h.of_issues hi.issues hi.admits hi.settings hi.variant hi.delivered
  · refine ⟨fun x hx => (h.issued x (hc.issued ▸ hx)).congr hc.settings (congrArg Cache.variant hc.cache), ?_⟩
    intro d hd
    rw [hc.delivered, List.mem_append] at hd
    rw [hc.issued]
    rcases hd with hd | hd
    · exact h.delivered d hd
    · exact ⟨e, hb.pending.subset hc.mem, eq_write_of_mem_receipts hd⟩

/-! ### The order of the writes to a register (R67) -/

/-- The bytes of these receipts at a register. -/
theorem State.received_of_append {s t : State} {ds : List Delivery} (h : t.delivered = s.delivered ++ ds)
    (reg : RegAddr) :
    t.received reg = s.received reg ++ ds.filterMap (fun d => if d.reg = reg then some d.v else none) := by
  rw [State.received, h, List.filterMap_append, State.received]

/-- Issuing keeps a register settled. -/
theorem State.Settled.of_issues {s t : State} {txns : List Transaction} {reg : RegAddr} (h : s.Settled reg)
    (hi : Issues s t txns) (hd : t.delivered = s.delivered) : t.Settled reg := by
  have hr : t.received reg = s.received reg := by rw [State.received, hd, State.received]
  rw [State.Settled, hr, hi.pending, hi.issued, writesTo_append, writesTo_append, ← List.append_assoc, h]

/-- With TRANSPORT_IN_ORDER the entry a completion selects is the first one pending. -/
theorem State.BookKept.eq_cons_of_first {s : State} {e : Entry} (hb : s.BookKept)
    (ho : s.settings.transportInOrder = true) (he : e ∈ s.pending) (hf : s.maySelect e.index = true) :
    ∃ es, s.pending = e :: es := by
  have hle : ∀ x ∈ s.pending, e.index ≤ x.index := by simpa [State.maySelect, ho] using hf
  have hsorted := hb.pending_sorted
  cases hp : s.pending with
  | nil => simp [hp] at he
  | cons x xs =>
    rw [hp] at he hle hsorted
    rcases List.mem_cons.mp he with rfl | he
    · exact ⟨xs, rfl⟩
    · exact absurd ((List.pairwise_cons.mp hsorted).1 e he) (Nat.not_lt.mpr (hle x List.mem_cons_self))

/-- Unless a write to the register fails, the chip receives there what the transaction writes there. -/
theorem receipts_at_register {x : Transaction} {a : Answer} {reg : RegAddr}
    (h : a = .failure → x.writeTo? reg = none) :
    (x.receipts a).filterMap (fun d => if d.reg = reg then some d.v else none) =
      (x.writeTo? reg).toList := by
  cases x with
  | read c r tag b => rfl
  | write c r v =>
    cases a with
    | success byte => by_cases hr : r = reg <;> simp [Transaction.receipts, hr]
    | failure => rw [h rfl]; rfl

/-- Settles O45: issuing appends to pending and issued alike; a completion takes the first pending entry, whose byte at
the register, if any, becomes the last one received there. -/
theorem inOrderTransportKeepsIssueOrder : Obligations.InOrderTransportKeepsIssueOrder := by
  intro s t reg hb ho h hfail hstep
  rcases step_issues_or_completes hstep with ⟨txns, hi⟩ | ⟨e, a, rest, ht, hc⟩
  · exact h.of_issues hi.issues hi.delivered
  · have hwrite : a = .failure → e.txn.writeTo? reg = none := by
      rintro rfl
      by_contra hne
      exact hfail ⟨e.index, rest, ht, e, hc.mem, rfl, Option.isSome_iff_ne_none.mpr hne⟩
    obtain ⟨es, hes⟩ := hb.eq_cons_of_first ho hc.mem hc.first
    have htail : t.pending = es := by rw [hc.pending, hes, List.eraseP_cons_of_pos (by simp)]
    have hhead : writesTo reg s.pending = (e.txn.writeTo? reg).toList ++ writesTo reg es := by
      rw [hes, writesTo, List.filterMap_cons]
      cases e.txn.writeTo? reg <;> rfl
    calc t.received reg ++ writesTo reg t.pending
        = s.received reg ++ ((e.txn.writeTo? reg).toList ++ writesTo reg es) := by
          rw [State.received_of_append hc.delivered, receipts_at_register hwrite, htail, List.append_assoc]
      _ = writesTo reg t.issued := by rw [← hhead, h, hc.issued]

/-- Settles O46: with nothing pending, the last byte received is the last byte issued. -/
theorem drainedChipAgreesWithCache : Obligations.DrainedChipAgreesWithCache := by
  intro s p h hp
  have hlast : ∀ reg, s.Settled reg → writesTo reg s.pending = [] → s.lastReceived reg = s.lastIssued reg := by
    intro reg hset hnone
    rw [State.lastReceived, State.lastIssued, ← hset, hnone, List.append_nil]
  obtain ⟨hdir, hout⟩ := h p hp
  exact ⟨fun hs hn => (hlast _ hs hn).trans hdir, fun hs hn => (hlast _ hs hn).trans hout⟩

/-! ### What no step does -/

/-- Settles O47. -/
theorem configurationIsReadOnly : Obligations.ConfigurationIsReadOnly := by
  intro s t hstep
  rcases step_issues_or_completes hstep with ⟨txns, hi⟩ | ⟨e, a, rest, -, hc⟩
  · exact ⟨hi.settings, hi.variant, hi.busOpen⟩
  · exact ⟨hc.settings, congrArg Cache.variant hc.cache, hc.busOpen⟩

/-- Settles O7: commands and completions leave the mark alone, a refused word sets it. -/
theorem refusedMarkIsSticky : Obligations.RefusedMarkIsSticky := by
  intro s t hstep
  have hkept : t.refused = s.refused → (s.refused = true → t.refused = true) ∧
      (s.refused = false → t.refused = true → ∃ w rest e, s.turns = .command w :: rest ∧ decode w = .error e) :=
    fun h => ⟨fun hs => h.trans hs, fun hs ht => absurd ((h.trans hs).symm.trans ht) Bool.false_ne_true⟩
  rcases step_cases hstep with ⟨w, rest, i, -, -, hexec⟩ | ⟨w, rest, e, ht, hw, rfl⟩ | ⟨index, a, rest, -, hcomplete⟩
  · exact hkept (exec_frame hexec).refused
  · exact ⟨fun _ => by simp, fun _ _ => ⟨w, rest, e, ht, hw⟩⟩
  · obtain ⟨e, -, hc⟩ := completionStep_of_transportStep hcomplete
    exact hkept hc.refused

/-- A command that changes a direction register is a pinMode or a reset. -/
theorem operation_of_exec_dir_ne {i : Instr} {s t : State} {p : Port} (h : exec i s = .next t)
    (hne : t.dir p ≠ s.dir p) : i.operation = .pinMode ∨ i.operation = .reset := by
  cases i with
  | pinMode pin d => exact .inl rfl
  | digitalWrite pin val => exact absurd (exec_digitalWrite_dir h p) hne
  | digitalRead pin => exact absurd (by rw [State.dir, exec_digitalRead_cache h, State.dir]) hne
  | reset => exact .inr rfl

/-- A command that changes an output register is a digitalWrite or a reset. -/
theorem operation_of_exec_out_ne {i : Instr} {s t : State} {p : Port} (h : exec i s = .next t)
    (hne : t.out p ≠ s.out p) : i.operation = .digitalWrite ∨ i.operation = .reset := by
  cases i with
  | pinMode pin d => exact absurd (exec_pinMode_out h p) hne
  | digitalWrite pin val => exact .inl rfl
  | digitalRead pin => exact absurd (by rw [State.out, exec_digitalRead_cache h, State.out]) hne
  | reset => exact .inr rfl

/-- Settles O48. -/
theorem onlyTheNamedCommandsWriteTheCache : Obligations.OnlyTheNamedCommandsWriteTheCache := by
  intro s t p hstep
  rcases step_cases hstep with ⟨w, rest, i, ht, hw, hexec⟩ | ⟨w, rest, e, -, -, rfl⟩ | ⟨index, a, rest, -, hcomplete⟩
  · exact ⟨fun hne => ⟨w, rest, i, ht, hw, operation_of_exec_dir_ne hexec hne⟩,
      fun hne => ⟨w, rest, i, ht, hw, operation_of_exec_out_ne hexec hne⟩⟩
  · exact ⟨fun hne => absurd (by simp) hne, fun hne => absurd (by simp) hne⟩
  · obtain ⟨-, hcache, -⟩ := transportStep_frame hcomplete
    exact ⟨fun hne => absurd (by rw [State.dir, hcache]; rfl) hne,
      fun hne => absurd (by rw [State.out, hcache]; rfl) hne⟩

/-- Settles O49. -/
theorem historiesOnlyGrow : Obligations.HistoriesOnlyGrow := by
  intro s t hstep
  rcases step_issues_or_completes hstep with ⟨txns, hi⟩ | ⟨e, a, rest, ht, hc⟩
  · obtain ⟨o, ho⟩ := hi.outcomes
    have htag : s.nextTag ≤ t.nextTag := by
      have hlen := congrArg List.length hi.tags
      simp only [List.length_append, List.length_range] at hlen
      omega
    exact ⟨hi.log, ⟨_, ho.symm⟩, hi.results ▸ List.prefix_rfl, ⟨_, hi.issues.issued.symm⟩,
      hi.delivered ▸ List.prefix_rfl, htag, fun x hx hgone => absurd (hi.issues.pending_prefix.subset hx) hgone⟩
  · refine ⟨hc.log, hc.outcomes ▸ List.prefix_rfl, ⟨_, hc.results.symm⟩, hc.issued ▸ List.prefix_rfl,
      ⟨_, hc.delivered.symm⟩, hc.nextTag.ge, fun x hx hgone => ?_⟩
    have hindex : x.index = e.index := by
      by_contra hne
      rw [hc.pending] at hgone
      exact hgone ((List.mem_eraseP_of_neg (by simpa using hne)).mpr hx)
    exact ⟨a, rest, hindex ▸ ht⟩

/-- Settles O52: commands and refused words answer a next state, and the transport's stops are no faults. -/
theorem runEndsWhenNoMoveIsLeft : Obligations.RunEndsWhenNoMoveIsLeft := by
  have hword : ∀ (s : State) (w : Word) (rest : List Turn), s.turns = .command w :: rest →
      ∃ t o, step s = .next t ∧ t.turns = rest ∧ t.outcomes = s.outcomes ++ [o] := by
    intro s w rest ht
    cases hw : decode w with
    | ok i =>
      obtain ⟨t, hexec, -⟩ := exec_does i (s.withTurns rest)
      obtain ⟨o, ho⟩ := (exec_frame hexec).outcomes
      exact ⟨t, o, (step_of_decoded ht hw).trans hexec, (exec_frame hexec).turns, ho⟩
    | error e => exact ⟨_, .refused, step_of_undecodable ht (by simp [hw]), by simp, by simp⟩
  refine ⟨fun s => ⟨fun h => ?_, fun h => by simp [step, State.nextTurn, h]⟩, hword⟩
  cases hs : s.turns with
  | nil => rfl
  | cons m rest =>
    cases m with
    | command w =>
      obtain ⟨t, o, hstep, -⟩ := hword s w rest hs
      exact absurd (hstep.symm.trans h) nofun
    | complete index a =>
      rw [step_of_complete hs, transportStep] at h
      split at h
      · cases h
      · split at h <;> cases h

end Sys2Proof.Machine
end

section
/-! PROOFS. Which transport moves are steps (R60), a failed write (R62), the result of a read (R141), and the clobbered
write of an unordered transport (R67). -/

namespace Sys2Proof.Machine

open Sys2Proof

/-! ### Selection (R60) -/

section
variable {s : State} {index : Nat} {a : Answer}

theorem State.maySelect_iff :
    s.maySelect index = true ↔ (s.settings.transportInOrder = true → ∀ x ∈ s.pending, index ≤ x.index) := by
  cases h : s.settings.transportInOrder <;> simp [State.maySelect, h]

theorem transportStep_of_not_pending (h : ¬∃ e ∈ s.pending, e.index = index) :
    transportStep index a s = .refused .noSuchTransaction := by
  have hfind : s.pending.find? (fun e => e.index == index) = none := by
    simpa [List.find?_eq_none] using h
  rw [transportStep, hfind]

/-- Whether the entry found may be selected decides the move. -/
theorem transportStep_of_find {e : Entry} (h : s.pending.find? (fun e => e.index == index) = some e) :
    transportStep index a s =
      if s.maySelect index then .next ((s.removePending index).traced (resolveTransaction e.txn a))
      else .refused .outOfIssueOrder := by
  rw [transportStep, h]

theorem transportStep_of_pending (h : ∃ e ∈ s.pending, e.index = index) :
    ∃ e : Entry, transportStep index a s =
      if s.maySelect index then .next ((s.removePending index).traced (resolveTransaction e.txn a))
      else .refused .outOfIssueOrder := by
  obtain ⟨e, he⟩ : ∃ e, s.pending.find? (fun e => e.index == index) = some e :=
    Option.isSome_iff_exists.mp (by simpa [List.find?_isSome] using h)
  exact ⟨e, transportStep_of_find he⟩

end

/-- Settles O36. -/
theorem transportSelection : Obligations.TransportSelection := by
  intro s index a
  refine ⟨⟨fun ⟨t, ht⟩ => ?_, fun ⟨hp, ho⟩ => ?_⟩, transportStep_of_not_pending, fun hp ho ⟨x, hx, hlt⟩ => ?_⟩
  · obtain ⟨e, he, hc⟩ := completionStep_of_transportStep ht
    exact ⟨⟨e, hc.mem, he⟩, State.maySelect_iff.mp (he ▸ hc.first)⟩
  · obtain ⟨e, hstep⟩ := transportStep_of_pending (a := a) hp
    exact ⟨_, hstep.trans (if_pos (State.maySelect_iff.mpr ho))⟩
  · obtain ⟨e, hstep⟩ := transportStep_of_pending (a := a) hp
    exact hstep.trans (if_neg fun hsel => Nat.not_lt.mpr (State.maySelect_iff.mp hsel ho x hx) hlt)

/-! ### Results (R141) -/

/-- Settles O24: the transport selects by the pending set and the settings, and the result is a function of the
transaction, the answer and the settings. -/
theorem readResultIgnoresTheCache : Obligations.ReadResultIgnoresTheCache := by
  intro s₁ s₂ t₁ index a hs hp h₁
  obtain ⟨e, hfind, hsel, rfl⟩ := transportStep_cases h₁
  have hsel₂ : s₂.maySelect index = true := by rwa [State.maySelect, ← hs, ← hp]
  have h₂ : transportStep index a s₂ = .next ((s₂.removePending index).traced (resolveTransaction e.txn a)) :=
    (transportStep_of_find (hp ▸ hfind)).trans (if_pos hsel₂)
  have f₁ := CompletionFrame.of_traced e.txn a (s₁.removePending index)
  have f₂ := CompletionFrame.of_traced e.txn a (s₂.removePending index)
  refine ⟨_, e.txn.deliveries s₁.settings a, h₂, ?_, ?_, f₁.cache, f₂.cache⟩
  · simp [resolveTransaction_results]
  · simp [resolveTransaction_results, hs]

/-! ### Writes (R62, R67) -/

/-- Settles O38: the resolution of a failed write is its log event. -/
theorem writeFailureIsOnlyLogged : Obligations.WriteFailureIsOnlyLogged := by
  intro s e rest c r v hb he hw ho ht
  obtain ⟨t, hstep, h⟩ := hb.step_completesEntry he ho ht
  have hdelivered : t.delivered = s.delivered := by rw [h.delivered, hw]; rfl
  have hresults : t.results = s.results := by rw [h.results, hw, resolveTransaction_write_results]
  have hlog : LogGains s t [.writeFailed] := by
    have htraced := (step_of_complete ht).trans ((hb.withTurns rest).transportStep_eq he ho .failure)
    rw [hw] at htraced
    cases hstep.symm.trans htraced
    exact State.traced_logGains (fun u => ⟨_, rfl, rfl⟩) (fun u => rfl) rfl rfl
  exact ⟨t, hstep, hlog, h.pending, hdelivered, h.cache, h.settings, h.busOpen, h.nextTag, h.refused, h.outcomes,
    hresults, h.issued, h.turns⟩

/-- A byte just received at a register is the last one received there. -/
theorem State.lastReceived_of_append {s t : State} {c : ChipAddr} {r : RegAddr} {v : Byte}
    (h : t.delivered = s.delivered ++ [⟨c, r, v⟩]) : t.lastReceived r = some v := by
  rw [State.lastReceived, State.received_of_append h]
  simp

/-- Settles O41: both completions are steps (R61); the older write, still pending after the newer, is received last. -/
theorem unorderedTransportCanClobber : Obligations.UnorderedTransportCanClobber := by
  intro s x y rest c d r v w byte₁ byte₂ hb ho hx hy hlt hxw hyw ht
  have hfree : ∀ u : State, u.settings = s.settings → ∀ n : Nat, u.settings.transportInOrder = true →
      ∀ z ∈ u.pending, n ≤ z.index := fun u hu n h => by simp [hu, ho] at h
  obtain ⟨u, hu, hdu, hpu, hcu, hsu, -, -, -, -, -, -, htu, -⟩ :=
    writeSuccessIsReceivedByTheChip s y _ d r w byte₁ hb hy hyw (hfree s rfl _) ht
  have hxu : x ∈ u.pending := by
    rw [hpu]
    exact (List.mem_erase_of_ne fun hxy => by simp [hxy] at hlt).mpr hx
  obtain ⟨t, hstep, hdt, -, hct, -⟩ :=
    writeSuccessIsReceivedByTheChip u x rest c r v byte₂ (stepKeepsTheBooks s u hb hu) hxu hxw (hfree u hsu _) htu
  exact ⟨u, t, hu, hstep, State.lastReceived_of_append hdu, State.lastReceived_of_append hdt, hct.trans hcu⟩

end Sys2Proof.Machine
end

section
/-! PROOFS. DEBUG and diagnostics have no effect (R172): every update of the state commutes with forgetting them. -/

namespace Sys2Proof.Machine

open Sys2Proof

/-- What an update does, up to diagnostics, does not depend on diagnostics. -/
def IgnoresDiagnostics (f : State → State) : Prop :=
  ∀ s, (f s).withoutDiagnostics = (f s.withoutDiagnostics).withoutDiagnostics

theorem State.trace_withoutDiagnostics (s : State) : s.trace.withoutDiagnostics = s.withoutDiagnostics := by
  unfold State.trace
  split <;> rfl

theorem State.traced_withoutDiagnostics (s : State) (body : State → State) :
    (s.traced body).withoutDiagnostics = (body s.trace).withoutDiagnostics :=
  State.trace_withoutDiagnostics _

/-- Trace points add nothing but diagnostics. -/
theorem IgnoresDiagnostics.traced {body : State → State} (h : IgnoresDiagnostics body) :
    IgnoresDiagnostics fun s => s.traced body := fun s => by
  dsimp only
  rw [State.traced_withoutDiagnostics, State.traced_withoutDiagnostics, h s.trace, h s.withoutDiagnostics.trace,
    State.trace_withoutDiagnostics, State.trace_withoutDiagnostics]
  rfl

theorem ignoresDiagnostics_initSequence : IgnoresDiagnostics State.initSequence := fun s => by
  have hv : s.withoutDiagnostics.variant = s.variant := rfl
  cases h : s.variant with
  | single => rw [initSequence_single s h, initSequence_single _ (hv.trans h)]; rfl
  | dual => rw [initSequence_dual s h, initSequence_dual _ (hv.trans h)]; rfl

theorem Act.ignoresDiagnostics_run (a : Act) : IgnoresDiagnostics a.run := fun s => by
  cases a with
  | init => exact congrArg (·.emit .ok) (ignoresDiagnostics_initSequence s)
  | raise | keep | putDir | putOut | read => rfl

theorem ignoresDiagnostics_commandBody (i : Instr) : IgnoresDiagnostics (commandBody i) := fun s => by
  have hlevel : levelOf s.withoutDiagnostics.settings = levelOf s.settings := by
    funext val
    cases val <;> rfl
  rw [commandBody_eq_run, commandBody_eq_run, actOf_congr i hlevel rfl]
  exact Act.ignoresDiagnostics_run _ s

theorem ignoresDiagnostics_resolveTransaction (txn : Transaction) (a : Answer) :
    IgnoresDiagnostics (resolveTransaction txn a) := fun s => by
  cases txn <;> cases a <;> rfl

/-- An answer without what diagnostics touch. -/
def forgetDiagnostics : Host.Outcome State Fault Refusal → Host.Outcome State Fault Refusal
  | .next s => .next s.withoutDiagnostics
  | .fault r => .fault r
  | .refused r => .refused r

theorem agreeUpToDiagnostics_iff (x y : Host.Outcome State Fault Refusal) :
    AgreeUpToDiagnostics x y ↔ forgetDiagnostics x = forgetDiagnostics y := by
  cases x <;> cases y <;> simp [AgreeUpToDiagnostics, forgetDiagnostics]

theorem commandStep_forget (w : Word) (s : State) :
    forgetDiagnostics (commandStep w s) = forgetDiagnostics (commandStep w s.withoutDiagnostics) := by
  unfold commandStep
  cases decode w with
  | ok i =>
    dsimp only
    rw [exec_eq, exec_eq]
    exact congrArg Host.Outcome.next ((ignoresDiagnostics_commandBody i).traced s)
  | error e =>
    have hrefuse : IgnoresDiagnostics fun t => t.markRefused.emit .refused := fun _ => rfl
    exact congrArg Host.Outcome.next (hrefuse.traced s)

theorem transportStep_forget (index : Nat) (a : Answer) (s : State) :
    forgetDiagnostics (transportStep index a s) = forgetDiagnostics (transportStep index a s.withoutDiagnostics) := by
  have hpending : s.withoutDiagnostics.pending = s.pending := rfl
  have hselect : s.withoutDiagnostics.maySelect index = s.maySelect index := rfl
  unfold transportStep
  rw [hpending, hselect]
  cases s.pending.find? (fun e => e.index == index) with
  | none => rfl
  | some e =>
    dsimp only
    split
    · exact congrArg Host.Outcome.next
        ((ignoresDiagnostics_resolveTransaction e.txn a).traced (s.removePending index))
    · rfl

/-- A step, up to diagnostics, is that of the state without them. -/
theorem step_forget (s : State) : forgetDiagnostics (step s) = forgetDiagnostics (step s.withoutDiagnostics) := by
  have hturns : s.withoutDiagnostics.turns = s.turns := rfl
  rcases hs : s.turns with _ | ⟨m, rest⟩
  · simp [step, State.nextTurn, hturns, hs]
  · cases m with
    | command w =>
      rw [step_of_command hs, step_of_command (hturns.trans hs)]
      exact commandStep_forget w (s.withTurns rest)
    | complete index a =>
      rw [step_of_complete hs, step_of_complete (hturns.trans hs)]
      exact transportStep_forget index a (s.withTurns rest)

/-- Settles O50: both steps are that of the one state without diagnostics. -/
theorem debugHasNoEffect : Obligations.DebugHasNoEffect := by
  intro s t h
  rw [agreeUpToDiagnostics_iff, step_forget s, step_forget t, h]

end Sys2Proof.Machine
end

section
/-! PROOFS. Construction (R190): which options give a state, the state they give, and the invariants it establishes. -/

namespace Sys2Proof.Machine

open Sys2Proof

/-! ### Options (R8, R190, D22) -/

theorem OptionValue.address?_eq_some_iff {v : OptionValue} {a : ChipAddr} :
    v.address? = some a ↔ ∃ k : Int, v = .int k ∧ 0 ≤ k ∧ k ≤ 127 ∧ BitVec.ofInt 7 k = a := by
  cases v with
  | int k => simp [OptionValue.address?, and_assoc]
  | absent | bool | other => simp [OptionValue.address?]

theorem OptionValue.intOr?_eq_some_iff {v : OptionValue} {dflt k : Int} :
    v.intOr? dflt = some k ↔ v = .int k ∨ (v = .absent ∧ k = dflt) := by
  cases v <;> simp [OptionValue.intOr?, eq_comm]

theorem OptionValue.boolOr?_eq_some_iff {v : OptionValue} {dflt b : Bool} :
    v.boolOr? dflt = some b ↔ v = .bool b ∨ (v = .absent ∧ b = dflt) := by
  cases v <;> simp [OptionValue.boolOr?, eq_comm]

/-- The configuration of these options, once the checked ones are read (R190). -/
def Options.settings (o : Options) (address : ChipAddr) (bus : Int) (reverse debug : Bool) : Settings where
  address := address
  bus := bus
  reverse := reverse
  debug := debug
  numericFollowsPolarity := o.numericFollowsPolarity
  readFollowsPolarity := o.readFollowsPolarity
  transportInOrder := o.transportInOrder
  regs := o.regs

/-- R190: the block of a variant with these settings, once its init sequence has run. -/
def constructed (v : Variant) (c : Settings) : State := (State.blank v c).traced State.initSequence

/-- R190: construction answers a state exactly for legal options and a bus that opens. -/
theorem construct_eq_next_iff {o : Options} {s : State} :
    construct o = .next s ↔ ∃ address bus reverse debug, o.address.address? = some address ∧
      OptionValue.intOr? 1 o.bus = some bus ∧ OptionValue.boolOr? false o.reverse = some reverse ∧
      OptionValue.boolOr? false o.debug = some debug ∧ o.busOpens = true ∧
      constructed o.variant (o.settings address bus reverse debug) = s := by
  unfold construct
  cases o.address.address? with
  | none => simp
  | some address =>
    cases OptionValue.intOr? 1 o.bus with
    | none => simp
    | some bus =>
      cases OptionValue.boolOr? false o.reverse with
      | none => simp
      | some reverse =>
        cases OptionValue.boolOr? false o.debug with
        | none => simp
        | some debug =>
          cases o.busOpens with
          | false => simp
          | true => simp [constructed, Options.settings]

/-- Settles O54. -/
theorem illegalOptionsGiveNoInstance : Obligations.IllegalOptionsGiveNoInstance := by
  rintro o ⟨s, h⟩
  obtain ⟨address, bus, reverse, debug, haddress, hbus, hreverse, hdebug, hopens, -⟩ := construct_eq_next_iff.mp h
  obtain ⟨adr, hadr, hlow, hhigh, -⟩ := OptionValue.address?_eq_some_iff.mp haddress
  refine ⟨⟨adr, hadr, hlow, hhigh⟩, ?_, ?_, ?_, hopens⟩
  · exact (OptionValue.intOr?_eq_some_iff.mp hbus).elim (fun h => .inr ⟨bus, h⟩) fun h => .inl h.1
  · exact (OptionValue.boolOr?_eq_some_iff.mp hreverse).elim (fun h => .inr ⟨reverse, h⟩) fun h => .inl h.1
  · exact (OptionValue.boolOr?_eq_some_iff.mp hdebug).elim (fun h => .inr ⟨debug, h⟩) fun h => .inl h.1

/-! ### The constructed state -/

section
variable (v : Variant) (c : Settings)

@[simp] theorem State.blank_variant : (State.blank v c).variant = v := by cases v <;> rfl
@[simp] theorem State.blank_settings : (State.blank v c).settings = c := rfl
@[simp] theorem State.blank_busOpen : (State.blank v c).busOpen = true := rfl
@[simp] theorem State.blank_nextTag : (State.blank v c).nextTag = 0 := rfl
@[simp] theorem State.blank_refused : (State.blank v c).refused = false := rfl
@[simp] theorem State.blank_outcomes : (State.blank v c).outcomes = [] := rfl
@[simp] theorem State.blank_results : (State.blank v c).results = [] := rfl
@[simp] theorem State.blank_delivered : (State.blank v c).delivered = [] := rfl

/-- R150, R190: what the init sequence makes of the blank state. -/
theorem constructed_spec : InitSequenceSpec (State.blank v c).trace (State.blank v c).trace.initSequence :=
  initSequence_spec _

@[simp] theorem constructed_settings : (constructed v c).settings = c := by
  simp [constructed, (constructed_spec v c).settings]

@[simp] theorem constructed_variant : (constructed v c).variant = v := by
  simp [constructed, (constructed_spec v c).variant]

theorem constructed_regs {p : Port} (hp : p ∈ v.ports) :
    (constructed v c).dir p = 0xFF#8 ∧ (constructed v c).out p = 0x00#8 := by
  simpa [constructed] using (constructed_spec v c).regs p (by simpa using hp)

theorem constructed_issues : Issues (State.blank v c) (constructed v c) (State.blank v c).initWrites := by
  have hissues := (constructed_spec v c).issues
  have hwrites : (State.blank v c).trace.initWrites = (State.blank v c).initWrites := by simp [State.initWrites]
  exact .traced (hwrites ▸ hissues)

/-- The init writes are the same seen from the constructed state. -/
theorem constructed_initWrites : (constructed v c).initWrites = (State.blank v c).initWrites := by
  simp [State.initWrites, State.regRow]

@[simp] theorem constructed_nextTag : (constructed v c).nextTag = 0 := by
  simp [constructed, (constructed_spec v c).nextTag]

@[simp] theorem constructed_delivered : (constructed v c).delivered = [] := by
  simp [constructed, (constructed_spec v c).delivered]

/-- R31, R172: construction logs debug events only. -/
theorem constructed_logGains : LogGains (State.blank v c) (constructed v c) [] :=
  .of_traced (mid := []) (by simp [(constructed_spec v c).log]) (by simp [(constructed_spec v c).settings])

end

/-- A log that gains no event of its own from nothing holds debug events only, and none without DEBUG. -/
theorem LogGains.only_debug {s t : State} (h : LogGains s t []) (hs : s.log = []) :
    (∀ e ∈ t.log, e.kind = .debug) ∧ (s.settings.debug = false → t.log = []) := by
  obtain ⟨pre, mid, post, hlog, hmid, hdebug, hnone⟩ := h
  have ht : t.log = pre ++ post := by rw [hlog, hs, List.map_eq_nil_iff.mp hmid, List.append_nil, List.nil_append]
  rw [ht]
  exact ⟨hdebug, hnone⟩

/-- Settles O53: legal options are read as they stand or as their defaults, and the rest is the init sequence run on the
blank state. -/
theorem constructionState : Obligations.ConstructionState := by
  intro o adr bus rev dbg hadr hlow hhigh hbus hrev hdbg hopens
  have haddress : o.address.address? = some (BitVec.ofInt 7 adr) :=
    OptionValue.address?_eq_some_iff.mpr ⟨adr, hadr, hlow, hhigh, rfl⟩
  have htoNat : ((BitVec.ofInt 7 adr).toNat : Int) = adr := by
    rw [BitVec.toNat_ofInt]
    omega
  have hissues := constructed_issues o.variant (o.settings (BitVec.ofInt 7 adr) bus rev dbg)
  rw [← constructed_initWrites] at hissues
  obtain ⟨hlog, hnolog⟩ := (constructed_logGains o.variant (o.settings (BitVec.ofInt 7 adr) bus rev dbg)).only_debug rfl
  have spec := constructed_spec o.variant (o.settings (BitVec.ofInt 7 adr) bus rev dbg)
  refine ⟨_, construct_eq_next_iff.mpr ⟨_, bus, rev, dbg, haddress, OptionValue.intOr?_eq_some_iff.mpr hbus,
    OptionValue.boolOr?_eq_some_iff.mpr hrev, OptionValue.boolOr?_eq_some_iff.mpr hdbg, hopens, rfl⟩, ?_⟩
  rw [constructed_settings, constructed_variant]
  exact ⟨htoNat, rfl, rfl, rfl, rfl, rfl, rfl, rfl, rfl, by simp [constructed, spec.busOpen],
    fun p hp => constructed_regs _ _ hp, hissues.pending, hissues.issued, constructed_nextTag _ _,
    by simp [constructed, spec.refused], by simp [constructed, spec.outcomes],
    by simp [constructed, spec.results], constructed_delivered _ _, hlog, hnolog⟩

/-! ### The invariants (R24, R32, R56, R67) -/

theorem filterMap_tag?_initWrites (s : State) : s.initWrites.filterMap Transaction.tag? = [] := by
  simp [State.initWrites, Transaction.tag?]

/-- R24: every cache register is the last init write to its register. -/
theorem constructed_cacheTracksBus (v : Variant) (c : Settings) (h : (constructed v c).WriteAddrsDistinct) :
    (constructed v c).CacheTracksBus :=
  .traced (State.WriteAddrsDistinct.initSequence_cacheTracksBus (h.congr (by simp) (by simp)))

/-- Settles O55: the invariants hold of the blank state, and issuing keeps them. -/
theorem constructionEstablishesTheInvariants : Obligations.ConstructionEstablishesTheInvariants := by
  intro o s h
  obtain ⟨c, rfl⟩ : ∃ c, s = constructed o.variant c := construct_cases h
  have hissues := constructed_issues o.variant c
  have hblank : (State.blank o.variant c).BookKept := ⟨rfl, rfl, List.Sublist.refl _⟩
  have haddr : (State.blank o.variant c).WellAddressed := ⟨nofun, nofun⟩
  refine ⟨hblank.of_issues hissues ?_, haddr.of_issues hissues (fun _ => admits_initWrites) ?_ ?_ ?_, fun reg => ?_,
    constructed_cacheTracksBus o.variant c⟩
  · rw [filterMap_tag?_initWrites, constructed_nextTag]
    rfl
  · exact constructed_settings _ _
  · rw [constructed_variant, State.blank_variant]
  · exact constructed_delivered _ _
  · exact State.Settled.of_issues (s := State.blank o.variant c) rfl hissues (constructed_delivered _ _)

/-- Settles O56: the default options are legal, so O55 gives the invariants. -/
theorem resetStateIsAConstruction : Obligations.ResetStateIsAConstruction := by
  have hconstruct : construct Options.default = .next State.reset := rfl
  have hdistinct : State.reset.WriteAddrsDistinct := by decide
  obtain ⟨hbooks, haddr, hsettled, htracks⟩ := constructionEstablishesTheInvariants _ _ hconstruct
  exact ⟨hconstruct, hdistinct, htracks hdistinct, hbooks, haddr, hsettled⟩

end Sys2Proof.Machine
end
